-- ==== Sys2Proof/Word.lean ====
section
/-! DEFINITION. The words of the block (R10, R14, R16 of 00_scope.md): a byte is 8 bits, an effective address
16 bits, and a byte sequence is a finite list of bytes. -/

namespace Sys2Proof

/-- One byte (R10): an opcode, an operand byte, an index register value, a character of a mnemonic text. -/
abbrev Byte := BitVec 8

/-- A 16-bit value (R10): an effective address, or the Resolver's operand input. -/
abbrev Word := BitVec 16

/-- A finite byte sequence (R16): a decode stream, an operand, an encoder output. -/
abbrev Bytes := List Byte

/-- The mnemonic text a caller hands over (R24), compared byte for byte (R80): a sequence of bytes of any length. -/
abbrev Text := List Byte

end Sys2Proof
end

