-- ==== Sys2Proof/Config.lean ====
section
/-! DEFINITION. What the hardware fixes: the closed enumerations of modes and mnemonics, the table's entry type, the
closed set of errors, and the parameter EXT_MODES's default. The spec leaves no value of the block open
(93_implementation_defined.md, section 1), so there is no free value here. -/

namespace Sys2Proof

/-- The addressing modes (R11, R12, R22 of 00_scope.md and 10_state.md). The last two exist only with EXT_MODES. -/
inductive Mode where
  /-- Code 0, no operand bytes. -/
  | accumulator
  /-- Code 1, no operand bytes. -/
  | implied
  /-- Code 2, one operand byte. -/
  | immediate
  /-- Code 3, one operand byte, R122. -/
  | zeroPage
  /-- Code 4, one operand byte, R123. -/
  | zeroPageX
  /-- Code 5, one operand byte, R124. -/
  | zeroPageY
  /-- Code 6, two operand bytes, R125. -/
  | absolute
  /-- Code 7, two operand bytes, R126. -/
  | absoluteX
  /-- Code 8, two operand bytes, R127. -/
  | absoluteY
  /-- Code 9, one operand byte, R128. -/
  | indirectX
  /-- Code 10, one operand byte, R129. -/
  | indirectY
  /-- Code 11, one operand byte, only with EXT_MODES (R12), R131. -/
  | relative
  /-- Code 12, two operand bytes, only with EXT_MODES (R12), R131. -/
  | indirect
  deriving DecidableEq, Repr

/-- The 56 mnemonics, in the alphabetical order of R23 (10_state.md). -/
inductive Mnemonic where
  /-- ADC, Add with Carry (R160). -/
  | adc
  /-- AND, logical AND (R161). -/
  | and
  /-- ASL, Arithmetic Shift Left (R162). -/
  | asl
  /-- BCC, Branch if Carry Clear (R163). -/
  | bcc
  /-- BCS, Branch if Carry Set (R164). -/
  | bcs
  /-- BEQ, Branch if Equal (R165). -/
  | beq
  /-- BIT, Bit Test (R166). -/
  | bit
  /-- BMI, Branch if Minus (R167). -/
  | bmi
  /-- BNE, Branch if Not Equal (R168). -/
  | bne
  /-- BPL, Branch if Plus (R169). -/
  | bpl
  /-- BRK, Break (R170). -/
  | brk
  /-- BVC, Branch if Overflow Clear (R171). -/
  | bvc
  /-- BVS, Branch if Overflow Set (R172). -/
  | bvs
  /-- CLC, Clear Carry (R173). -/
  | clc
  /-- CLD, Clear Decimal (R174). -/
  | cld
  /-- CLI, Clear Interrupt Disable (R175). -/
  | cli
  /-- CLV, Clear Overflow (R176). -/
  | clv
  /-- CMP, Compare Accumulator (R177). -/
  | cmp
  /-- CPX, Compare X (R178). -/
  | cpx
  /-- CPY, Compare Y (R179). -/
  | cpy
  /-- DEC, Decrement Memory (R180). -/
  | dec
  /-- DEX, Decrement X (R181). -/
  | dex
  /-- DEY, Decrement Y (R182). -/
  | dey
  /-- EOR, Exclusive OR (R183). -/
  | eor
  /-- INC, Increment Memory (R184). -/
  | inc
  /-- INX, Increment X (R185). -/
  | inx
  /-- INY, Increment Y (R186). -/
  | iny
  /-- JMP, Jump (R187). -/
  | jmp
  /-- JSR, Jump to Subroutine (R188). -/
  | jsr
  /-- LDA, Load Accumulator (R189). -/
  | lda
  /-- LDX, Load X (R190). -/
  | ldx
  /-- LDY, Load Y (R191). -/
  | ldy
  /-- LSR, Logical Shift Right (R192). -/
  | lsr
  /-- NOP, No Operation (R193). -/
  | nop
  /-- ORA, logical inclusive OR (R194). -/
  | ora
  /-- PHA, Push Accumulator (R195). -/
  | pha
  /-- PHP, Push Processor Status (R196). -/
  | php
  /-- PLA, Pull Accumulator (R197). -/
  | pla
  /-- PLP, Pull Processor Status (R198). -/
  | plp
  /-- ROL, Rotate Left (R199). -/
  | rol
  /-- ROR, Rotate Right (R200). -/
  | ror
  /-- RTI, Return from Interrupt (R201). -/
  | rti
  /-- RTS, Return from Subroutine (R202). -/
  | rts
  /-- SBC, Subtract with Carry (R203). -/
  | sbc
  /-- SEC, Set Carry (R204). -/
  | sec
  /-- SED, Set Decimal (R205). -/
  | sed
  /-- SEI, Set Interrupt Disable (R206). -/
  | sei
  /-- STA, Store Accumulator (R207). -/
  | sta
  /-- STX, Store X (R208). -/
  | stx
  /-- STY, Store Y (R209). -/
  | sty
  /-- TAX, Transfer A to X (R210). -/
  | tax
  /-- TAY, Transfer A to Y (R211). -/
  | tay
  /-- TSX, Transfer Stack Pointer to X (R212). -/
  | tsx
  /-- TXA, Transfer X to A (R213). -/
  | txa
  /-- TXS, Transfer X to Stack Pointer (R214). -/
  | txs
  /-- TYA, Transfer Y to A (R215). -/
  | tya
  deriving DecidableEq, Repr

/-- InstructionEntry (R18): "the tuple (Mnemonic, AddressingMode, OpcodeByte)". -/
structure Entry where
  mnemonic : Mnemonic
  mode : Mode
  opcode : Byte
  deriving DecidableEq, Repr

/-- The errors, a closed set (R230, 60_exceptions.md), each with the information it records. An error is a result handed
to the caller, never a stop of the machine (R231, R232), but for `duplicateTableEntry`, which is raised by table
construction only and is fatal (R234). -/
inductive BlockError where
  /-- Code 1: the text is not a defined mnemonic (R80). -/
  | unknownMnemonic (m : Text)
  /-- Code 2: the mnemonic is defined and has no entry with the mode (R81). -/
  | unsupportedAddressingMode (m : Text) (mode : Mode)
  /-- Code 3: the opcode byte has no entry (R82). -/
  | illegalOpcode (b : Byte)
  /-- Code 4: the operand byte count is not the mode's (R100). -/
  | operandSizeMismatch (expected actual : Nat)
  /-- Code 5: the stream ends before the opcode byte or before the last operand byte (R150). -/
  | truncatedInstruction (needed available : Nat)
  /-- Code 6: a (mnemonic, mode) pair or an opcode byte inserted twice, with the offending entry (R84). -/
  | duplicateTableEntry (e : Entry)
  /-- Code 7: the mode has no effective address (R130, R131). -/
  | noEffectiveAddress (mode : Mode)
  deriving DecidableEq, Repr

/-- What `decode` returns (R27): mnemonic, mode, the operand bytes in stream order, and how many bytes were consumed. -/
structure Decoded where
  mnemonic : Mnemonic
  mode : Mode
  operands : Bytes
  consumed : Nat
  deriving DecidableEq, Repr

/-- What `resolveAddress` returns (R28, R120): the pair (effectiveAddress, pageCrossed). -/
structure EffectiveAddress where
  ea : Word
  pageCrossed : Bool
  deriving DecidableEq, Repr

/-- How a mode's operand bytes are read, before any address arithmetic: the rows of R63 (30_encoding.md). The two rows
of EXT_MODES are the spec's general knowledge (G6) and the block never resolves them (log entry 13). -/
inductive OperandReading where
  /-- Accumulator: the operand is the CPU accumulator. -/
  | accumulator
  /-- Implied: no operand. -/
  | noOperand
  /-- Immediate: the 8-bit value itself. -/
  | value (n : Byte)
  /-- ZeroPage: a zero-page address, high byte forced to 0x00. -/
  | zeroPageAddress (a : Word)
  /-- ZeroPageX, ZeroPageY: a zero-page base, indexed modulo 256. -/
  | zeroPageBase (ll : Byte)
  /-- Absolute, AbsoluteX, AbsoluteY: a 16-bit address. -/
  | address (a : Word)
  /-- IndirectX: the zero-page base of a pointer table, indexed modulo 256. -/
  | pointerTableBase (ll : Byte)
  /-- IndirectY: the zero-page address of a pointer. -/
  | pointerAddress (ll : Byte)
  /-- Relative: the displacement, sign-extended to 16 bits; not resolved by the block. -/
  | displacement (d : Word)
  /-- Indirect: the 16-bit address of a pointer; not resolved by the block. -/
  | indirectPointer (a : Word)
  deriving DecidableEq, Repr

/-- The default of the parameter EXT_MODES (R12). -/
def Config.extModesDefault : Bool := false

end Sys2Proof
end

