-- ==== Sys2Proof/Syntax.lean ====
section
/-! DEFINITION. The instructions: one constructor per row of spec/opcode_table.json, named by its mnemonic and the
mode's abbreviation in the opcode map (R66, 30_encoding.md). The operand bytes are the row's, in stream order (R60):
none (F1), `n` (F2), or `lo hi` (F3, low byte first, R43). -/

namespace Sys2Proof

/-- An instruction of the opcode map. Each constructor's comment gives the row's opcode byte and its rule. -/
inductive Instr where
  /-- ADC Immediate, 0x69 (R160). -/
  | adcImm (n : Byte)
  /-- ADC ZeroPage, 0x65 (R160). -/
  | adcZp (n : Byte)
  /-- ADC ZeroPageX, 0x75 (R160). -/
  | adcZpx (n : Byte)
  /-- ADC Absolute, 0x6D (R160). -/
  | adcAbs (lo hi : Byte)
  /-- ADC AbsoluteX, 0x7D (R160). -/
  | adcAbx (lo hi : Byte)
  /-- ADC AbsoluteY, 0x79 (R160). -/
  | adcAby (lo hi : Byte)
  /-- ADC IndirectX, 0x61 (R160). -/
  | adcIzx (n : Byte)
  /-- ADC IndirectY, 0x71 (R160). -/
  | adcIzy (n : Byte)
  /-- AND Immediate, 0x29 (R161). -/
  | andImm (n : Byte)
  /-- AND ZeroPage, 0x25 (R161). -/
  | andZp (n : Byte)
  /-- AND ZeroPageX, 0x35 (R161). -/
  | andZpx (n : Byte)
  /-- AND Absolute, 0x2D (R161). -/
  | andAbs (lo hi : Byte)
  /-- AND AbsoluteX, 0x3D (R161). -/
  | andAbx (lo hi : Byte)
  /-- AND AbsoluteY, 0x39 (R161). -/
  | andAby (lo hi : Byte)
  /-- AND IndirectX, 0x21 (R161). -/
  | andIzx (n : Byte)
  /-- AND IndirectY, 0x31 (R161). -/
  | andIzy (n : Byte)
  /-- ASL Accumulator, 0x0A (R162). -/
  | aslAcc
  /-- ASL ZeroPage, 0x06 (R162). -/
  | aslZp (n : Byte)
  /-- ASL ZeroPageX, 0x16 (R162). -/
  | aslZpx (n : Byte)
  /-- ASL Absolute, 0x0E (R162). -/
  | aslAbs (lo hi : Byte)
  /-- ASL AbsoluteX, 0x1E (R162). -/
  | aslAbx (lo hi : Byte)
  /-- BCC Relative, 0x90, only with EXT_MODES (R163). -/
  | bccRel (n : Byte)
  /-- BCS Relative, 0xB0, only with EXT_MODES (R164). -/
  | bcsRel (n : Byte)
  /-- BEQ Relative, 0xF0, only with EXT_MODES (R165). -/
  | beqRel (n : Byte)
  /-- BIT ZeroPage, 0x24 (R166). -/
  | bitZp (n : Byte)
  /-- BIT Absolute, 0x2C (R166). -/
  | bitAbs (lo hi : Byte)
  /-- BMI Relative, 0x30, only with EXT_MODES (R167). -/
  | bmiRel (n : Byte)
  /-- BNE Relative, 0xD0, only with EXT_MODES (R168). -/
  | bneRel (n : Byte)
  /-- BPL Relative, 0x10, only with EXT_MODES (R169). -/
  | bplRel (n : Byte)
  /-- BRK Implied, 0x00 (R170). -/
  | brkImp
  /-- BVC Relative, 0x50, only with EXT_MODES (R171). -/
  | bvcRel (n : Byte)
  /-- BVS Relative, 0x70, only with EXT_MODES (R172). -/
  | bvsRel (n : Byte)
  /-- CLC Implied, 0x18 (R173). -/
  | clcImp
  /-- CLD Implied, 0xD8 (R174). -/
  | cldImp
  /-- CLI Implied, 0x58 (R175). -/
  | cliImp
  /-- CLV Implied, 0xB8 (R176). -/
  | clvImp
  /-- CMP Immediate, 0xC9 (R177). -/
  | cmpImm (n : Byte)
  /-- CMP ZeroPage, 0xC5 (R177). -/
  | cmpZp (n : Byte)
  /-- CMP ZeroPageX, 0xD5 (R177). -/
  | cmpZpx (n : Byte)
  /-- CMP Absolute, 0xCD (R177). -/
  | cmpAbs (lo hi : Byte)
  /-- CMP AbsoluteX, 0xDD (R177). -/
  | cmpAbx (lo hi : Byte)
  /-- CMP AbsoluteY, 0xD9 (R177). -/
  | cmpAby (lo hi : Byte)
  /-- CMP IndirectX, 0xC1 (R177). -/
  | cmpIzx (n : Byte)
  /-- CMP IndirectY, 0xD1 (R177). -/
  | cmpIzy (n : Byte)
  /-- CPX Immediate, 0xE0 (R178). -/
  | cpxImm (n : Byte)
  /-- CPX ZeroPage, 0xE4 (R178). -/
  | cpxZp (n : Byte)
  /-- CPX Absolute, 0xEC (R178). -/
  | cpxAbs (lo hi : Byte)
  /-- CPY Immediate, 0xC0 (R179). -/
  | cpyImm (n : Byte)
  /-- CPY ZeroPage, 0xC4 (R179). -/
  | cpyZp (n : Byte)
  /-- CPY Absolute, 0xCC (R179). -/
  | cpyAbs (lo hi : Byte)
  /-- DEC ZeroPage, 0xC6 (R180). -/
  | decZp (n : Byte)
  /-- DEC ZeroPageX, 0xD6 (R180). -/
  | decZpx (n : Byte)
  /-- DEC Absolute, 0xCE (R180). -/
  | decAbs (lo hi : Byte)
  /-- DEC AbsoluteX, 0xDE (R180). -/
  | decAbx (lo hi : Byte)
  /-- DEX Implied, 0xCA (R181). -/
  | dexImp
  /-- DEY Implied, 0x88 (R182). -/
  | deyImp
  /-- EOR Immediate, 0x49 (R183). -/
  | eorImm (n : Byte)
  /-- EOR ZeroPage, 0x45 (R183). -/
  | eorZp (n : Byte)
  /-- EOR ZeroPageX, 0x55 (R183). -/
  | eorZpx (n : Byte)
  /-- EOR Absolute, 0x4D (R183). -/
  | eorAbs (lo hi : Byte)
  /-- EOR AbsoluteX, 0x5D (R183). -/
  | eorAbx (lo hi : Byte)
  /-- EOR AbsoluteY, 0x59 (R183). -/
  | eorAby (lo hi : Byte)
  /-- EOR IndirectX, 0x41 (R183). -/
  | eorIzx (n : Byte)
  /-- EOR IndirectY, 0x51 (R183). -/
  | eorIzy (n : Byte)
  /-- INC ZeroPage, 0xE6 (R184). -/
  | incZp (n : Byte)
  /-- INC ZeroPageX, 0xF6 (R184). -/
  | incZpx (n : Byte)
  /-- INC Absolute, 0xEE (R184). -/
  | incAbs (lo hi : Byte)
  /-- INC AbsoluteX, 0xFE (R184). -/
  | incAbx (lo hi : Byte)
  /-- INX Implied, 0xE8 (R185). -/
  | inxImp
  /-- INY Implied, 0xC8 (R186). -/
  | inyImp
  /-- JMP Absolute, 0x4C (R187). -/
  | jmpAbs (lo hi : Byte)
  /-- JMP Indirect, 0x6C, only with EXT_MODES (R187). -/
  | jmpInd (lo hi : Byte)
  /-- JSR Absolute, 0x20 (R188). -/
  | jsrAbs (lo hi : Byte)
  /-- LDA Immediate, 0xA9 (R189). -/
  | ldaImm (n : Byte)
  /-- LDA ZeroPage, 0xA5 (R189). -/
  | ldaZp (n : Byte)
  /-- LDA ZeroPageX, 0xB5 (R189). -/
  | ldaZpx (n : Byte)
  /-- LDA Absolute, 0xAD (R189). -/
  | ldaAbs (lo hi : Byte)
  /-- LDA AbsoluteX, 0xBD (R189). -/
  | ldaAbx (lo hi : Byte)
  /-- LDA AbsoluteY, 0xB9 (R189). -/
  | ldaAby (lo hi : Byte)
  /-- LDA IndirectX, 0xA1 (R189). -/
  | ldaIzx (n : Byte)
  /-- LDA IndirectY, 0xB1 (R189). -/
  | ldaIzy (n : Byte)
  /-- LDX Immediate, 0xA2 (R190). -/
  | ldxImm (n : Byte)
  /-- LDX ZeroPage, 0xA6 (R190). -/
  | ldxZp (n : Byte)
  /-- LDX ZeroPageY, 0xB6 (R190). -/
  | ldxZpy (n : Byte)
  /-- LDX Absolute, 0xAE (R190). -/
  | ldxAbs (lo hi : Byte)
  /-- LDX AbsoluteY, 0xBE (R190). -/
  | ldxAby (lo hi : Byte)
  /-- LDY Immediate, 0xA0 (R191). -/
  | ldyImm (n : Byte)
  /-- LDY ZeroPage, 0xA4 (R191). -/
  | ldyZp (n : Byte)
  /-- LDY ZeroPageX, 0xB4 (R191). -/
  | ldyZpx (n : Byte)
  /-- LDY Absolute, 0xAC (R191). -/
  | ldyAbs (lo hi : Byte)
  /-- LDY AbsoluteX, 0xBC (R191). -/
  | ldyAbx (lo hi : Byte)
  /-- LSR Accumulator, 0x4A (R192). -/
  | lsrAcc
  /-- LSR ZeroPage, 0x46 (R192). -/
  | lsrZp (n : Byte)
  /-- LSR ZeroPageX, 0x56 (R192). -/
  | lsrZpx (n : Byte)
  /-- LSR Absolute, 0x4E (R192). -/
  | lsrAbs (lo hi : Byte)
  /-- LSR AbsoluteX, 0x5E (R192). -/
  | lsrAbx (lo hi : Byte)
  /-- NOP Implied, 0xEA (R193). -/
  | nopImp
  /-- ORA Immediate, 0x09 (R194). -/
  | oraImm (n : Byte)
  /-- ORA ZeroPage, 0x05 (R194). -/
  | oraZp (n : Byte)
  /-- ORA ZeroPageX, 0x15 (R194). -/
  | oraZpx (n : Byte)
  /-- ORA Absolute, 0x0D (R194). -/
  | oraAbs (lo hi : Byte)
  /-- ORA AbsoluteX, 0x1D (R194). -/
  | oraAbx (lo hi : Byte)
  /-- ORA AbsoluteY, 0x19 (R194). -/
  | oraAby (lo hi : Byte)
  /-- ORA IndirectX, 0x01 (R194). -/
  | oraIzx (n : Byte)
  /-- ORA IndirectY, 0x11 (R194). -/
  | oraIzy (n : Byte)
  /-- PHA Implied, 0x48 (R195). -/
  | phaImp
  /-- PHP Implied, 0x08 (R196). -/
  | phpImp
  /-- PLA Implied, 0x68 (R197). -/
  | plaImp
  /-- PLP Implied, 0x28 (R198). -/
  | plpImp
  /-- ROL Accumulator, 0x2A (R199). -/
  | rolAcc
  /-- ROL ZeroPage, 0x26 (R199). -/
  | rolZp (n : Byte)
  /-- ROL ZeroPageX, 0x36 (R199). -/
  | rolZpx (n : Byte)
  /-- ROL Absolute, 0x2E (R199). -/
  | rolAbs (lo hi : Byte)
  /-- ROL AbsoluteX, 0x3E (R199). -/
  | rolAbx (lo hi : Byte)
  /-- ROR Accumulator, 0x6A (R200). -/
  | rorAcc
  /-- ROR ZeroPage, 0x66 (R200). -/
  | rorZp (n : Byte)
  /-- ROR ZeroPageX, 0x76 (R200). -/
  | rorZpx (n : Byte)
  /-- ROR Absolute, 0x6E (R200). -/
  | rorAbs (lo hi : Byte)
  /-- ROR AbsoluteX, 0x7E (R200). -/
  | rorAbx (lo hi : Byte)
  /-- RTI Implied, 0x40 (R201). -/
  | rtiImp
  /-- RTS Implied, 0x60 (R202). -/
  | rtsImp
  /-- SBC Immediate, 0xE9 (R203). -/
  | sbcImm (n : Byte)
  /-- SBC ZeroPage, 0xE5 (R203). -/
  | sbcZp (n : Byte)
  /-- SBC ZeroPageX, 0xF5 (R203). -/
  | sbcZpx (n : Byte)
  /-- SBC Absolute, 0xED (R203). -/
  | sbcAbs (lo hi : Byte)
  /-- SBC AbsoluteX, 0xFD (R203). -/
  | sbcAbx (lo hi : Byte)
  /-- SBC AbsoluteY, 0xF9 (R203). -/
  | sbcAby (lo hi : Byte)
  /-- SBC IndirectX, 0xE1 (R203). -/
  | sbcIzx (n : Byte)
  /-- SBC IndirectY, 0xF1 (R203). -/
  | sbcIzy (n : Byte)
  /-- SEC Implied, 0x38 (R204). -/
  | secImp
  /-- SED Implied, 0xF8 (R205). -/
  | sedImp
  /-- SEI Implied, 0x78 (R206). -/
  | seiImp
  /-- STA ZeroPage, 0x85 (R207). -/
  | staZp (n : Byte)
  /-- STA ZeroPageX, 0x95 (R207). -/
  | staZpx (n : Byte)
  /-- STA Absolute, 0x8D (R207). -/
  | staAbs (lo hi : Byte)
  /-- STA AbsoluteX, 0x9D (R207). -/
  | staAbx (lo hi : Byte)
  /-- STA AbsoluteY, 0x99 (R207). -/
  | staAby (lo hi : Byte)
  /-- STA IndirectX, 0x81 (R207). -/
  | staIzx (n : Byte)
  /-- STA IndirectY, 0x91 (R207). -/
  | staIzy (n : Byte)
  /-- STX ZeroPage, 0x86 (R208). -/
  | stxZp (n : Byte)
  /-- STX ZeroPageY, 0x96 (R208). -/
  | stxZpy (n : Byte)
  /-- STX Absolute, 0x8E (R208). -/
  | stxAbs (lo hi : Byte)
  /-- STY ZeroPage, 0x84 (R209). -/
  | styZp (n : Byte)
  /-- STY ZeroPageX, 0x94 (R209). -/
  | styZpx (n : Byte)
  /-- STY Absolute, 0x8C (R209). -/
  | styAbs (lo hi : Byte)
  /-- TAX Implied, 0xAA (R210). -/
  | taxImp
  /-- TAY Implied, 0xA8 (R211). -/
  | tayImp
  /-- TSX Implied, 0xBA (R212). -/
  | tsxImp
  /-- TXA Implied, 0x8A (R213). -/
  | txaImp
  /-- TXS Implied, 0x9A (R214). -/
  | txsImp
  /-- TYA Implied, 0x98 (R215). -/
  | tyaImp
  deriving DecidableEq, Repr

end Sys2Proof
end

