-- ==== Sys2Proof/WellFormed.lean ====
section
/-! DEFINITION. Which instructions a block has: every instruction whose mode exists under the block's EXT_MODES. The
operand byte counts need no check, since each constructor carries exactly its mode's bytes (R62). -/

namespace Sys2Proof

/-- The instructions that exist only with EXT_MODES: the eight branches and JMP Indirect (R69, 30_encoding.md). -/
def Instr.extOnly : Instr → Bool
  | .bccRel _ | .bcsRel _ | .beqRel _ | .bmiRel _ | .bneRel _ | .bplRel _ | .bvcRel _ | .bvsRel _ | .jmpInd _ _ => true
  | .adcImm _ | .adcZp _ | .adcZpx _ | .adcAbs _ _ | .adcAbx _ _ | .adcAby _ _ | .adcIzx _ | .adcIzy _ | .andImm _
  | .andZp _ | .andZpx _ | .andAbs _ _ | .andAbx _ _ | .andAby _ _ | .andIzx _ | .andIzy _ | .aslAcc | .aslZp _
  | .aslZpx _ | .aslAbs _ _ | .aslAbx _ _ | .bitZp _ | .bitAbs _ _ | .brkImp | .clcImp | .cldImp | .cliImp
  | .clvImp | .cmpImm _ | .cmpZp _ | .cmpZpx _ | .cmpAbs _ _ | .cmpAbx _ _ | .cmpAby _ _ | .cmpIzx _ | .cmpIzy _
  | .cpxImm _ | .cpxZp _ | .cpxAbs _ _ | .cpyImm _ | .cpyZp _ | .cpyAbs _ _ | .decZp _ | .decZpx _ | .decAbs _ _
  | .decAbx _ _ | .dexImp | .deyImp | .eorImm _ | .eorZp _ | .eorZpx _ | .eorAbs _ _ | .eorAbx _ _ | .eorAby _ _
  | .eorIzx _ | .eorIzy _ | .incZp _ | .incZpx _ | .incAbs _ _ | .incAbx _ _ | .inxImp | .inyImp | .jmpAbs _ _
  | .jsrAbs _ _ | .ldaImm _ | .ldaZp _ | .ldaZpx _ | .ldaAbs _ _ | .ldaAbx _ _ | .ldaAby _ _ | .ldaIzx _
  | .ldaIzy _ | .ldxImm _ | .ldxZp _ | .ldxZpy _ | .ldxAbs _ _ | .ldxAby _ _ | .ldyImm _ | .ldyZp _ | .ldyZpx _
  | .ldyAbs _ _ | .ldyAbx _ _ | .lsrAcc | .lsrZp _ | .lsrZpx _ | .lsrAbs _ _ | .lsrAbx _ _ | .nopImp | .oraImm _
  | .oraZp _ | .oraZpx _ | .oraAbs _ _ | .oraAbx _ _ | .oraAby _ _ | .oraIzx _ | .oraIzy _ | .phaImp | .phpImp
  | .plaImp | .plpImp | .rolAcc | .rolZp _ | .rolZpx _ | .rolAbs _ _ | .rolAbx _ _ | .rorAcc | .rorZp _ | .rorZpx _
  | .rorAbs _ _ | .rorAbx _ _ | .rtiImp | .rtsImp | .sbcImm _ | .sbcZp _ | .sbcZpx _ | .sbcAbs _ _ | .sbcAbx _ _
  | .sbcAby _ _ | .sbcIzx _ | .sbcIzy _ | .secImp | .sedImp | .seiImp | .staZp _ | .staZpx _ | .staAbs _ _
  | .staAbx _ _ | .staAby _ _ | .staIzx _ | .staIzy _ | .stxZp _ | .stxZpy _ | .stxAbs _ _ | .styZp _ | .styZpx _
  | .styAbs _ _ | .taxImp | .tayImp | .tsxImp | .txaImp | .txsImp | .tyaImp => false

/-- A well-formed instruction of a block with this EXT_MODES: with `false`, the extension-only instructions are absent
(R12). -/
def Instr.wellFormed (ext : Bool) (i : Instr) : Bool := ext || !i.extOnly

end Sys2Proof
end

