-- ==== Sys2Proof/Decode.lean ====
section
/-! DEFINITION. The Instruction Table and the units that read it: the opcode map, the codes and names, the two lookups
(40_table_lookup.md), the Decoder (43_decoder.md), the Encoder (41_encoder.md), and the reading of a decoded instruction
as an `Instr` with the encoder of one. Decoding is total on any bytes and rejects by the error's name. -/

namespace Sys2Proof

/-! ### Modes (R22, R62) -/

/-- The operand byte count of a mode (R62, 30_encoding.md). -/
def Mode.operandSize : Mode → Nat
  | .accumulator | .implied => 0
  | .immediate | .zeroPage | .zeroPageX | .zeroPageY | .indirectX | .indirectY => 1
  | .absolute | .absoluteX | .absoluteY => 2
  | .relative => 1
  | .indirect => 2

/-- The two modes that exist only with EXT_MODES (R12, R22). -/
def Mode.isExt : Mode → Bool
  | .relative | .indirect => true
  | .accumulator | .implied | .immediate | .zeroPage | .zeroPageX | .zeroPageY | .absolute | .absoluteX | .absoluteY
  | .indirectX | .indirectY => false

/-- The memory modes: those for which the Resolver computes an address (R22, R120). -/
def Mode.isMemory : Mode → Bool
  | .zeroPage | .zeroPageX | .zeroPageY | .absolute | .absoluteX | .absoluteY | .indirectX | .indirectY => true
  | .accumulator | .implied | .immediate | .relative | .indirect => false

/-- The 4-bit code of a mode (R22; the spec's own, D5). -/
def Mode.code : Mode → BitVec 4
  | .accumulator => 0
  | .implied => 1
  | .immediate => 2
  | .zeroPage => 3
  | .zeroPageX => 4
  | .zeroPageY => 5
  | .absolute => 6
  | .absoluteX => 7
  | .absoluteY => 8
  | .indirectX => 9
  | .indirectY => 10
  | .relative => 11
  | .indirect => 12

/-- The modes in the order of their codes (R22). -/
def Mode.all : List Mode :=
  [.accumulator, .implied, .immediate, .zeroPage, .zeroPageX, .zeroPageY, .absolute, .absoluteX, .absoluteY,
   .indirectX, .indirectY, .relative, .indirect]

/-- The mode a raw 4-bit code names, if any: 13, 14 and 15 name none, nor do 11 and 12 without EXT_MODES (R22). -/
def Mode.ofCode (ext : Bool) (c : BitVec 4) : Option Mode :=
  Mode.all.find? (fun m => m.code == c && (ext || !m.isExt))

/-! ### Mnemonics (R23, R87) -/

/-- The 6-bit index of a mnemonic (R23; the spec's own, D4). -/
def Mnemonic.index : Mnemonic → BitVec 6
  | .adc => 0
  | .and => 1
  | .asl => 2
  | .bcc => 3
  | .bcs => 4
  | .beq => 5
  | .bit => 6
  | .bmi => 7
  | .bne => 8
  | .bpl => 9
  | .brk => 10
  | .bvc => 11
  | .bvs => 12
  | .clc => 13
  | .cld => 14
  | .cli => 15
  | .clv => 16
  | .cmp => 17
  | .cpx => 18
  | .cpy => 19
  | .dec => 20
  | .dex => 21
  | .dey => 22
  | .eor => 23
  | .inc => 24
  | .inx => 25
  | .iny => 26
  | .jmp => 27
  | .jsr => 28
  | .lda => 29
  | .ldx => 30
  | .ldy => 31
  | .lsr => 32
  | .nop => 33
  | .ora => 34
  | .pha => 35
  | .php => 36
  | .pla => 37
  | .plp => 38
  | .rol => 39
  | .ror => 40
  | .rti => 41
  | .rts => 42
  | .sbc => 43
  | .sec => 44
  | .sed => 45
  | .sei => 46
  | .sta => 47
  | .stx => 48
  | .sty => 49
  | .tax => 50
  | .tay => 51
  | .tsx => 52
  | .txa => 53
  | .txs => 54
  | .tya => 55

/-- The mnemonics in the order of their indexes (R23). -/
def Mnemonic.all : List Mnemonic :=
  [.adc, .and, .asl, .bcc, .bcs, .beq, .bit, .bmi, .bne, .bpl, .brk, .bvc, .bvs, .clc,
   .cld, .cli, .clv, .cmp, .cpx, .cpy, .dec, .dex, .dey, .eor, .inc, .inx, .iny, .jmp,
   .jsr, .lda, .ldx, .ldy, .lsr, .nop, .ora, .pha, .php, .pla, .plp, .rol, .ror, .rti,
   .rts, .sbc, .sec, .sed, .sei, .sta, .stx, .sty, .tax, .tay, .tsx, .txa, .txs, .tya]

/-- The mnemonic a raw 6-bit index names, if any: 56 to 63 name none (R23, R87). -/
def Mnemonic.ofIndex (i : BitVec 6) : Option Mnemonic := Mnemonic.all.find? (fun m => m.index == i)

/-- The mnemonic-name output of the multiplexer (R29, R87): the three ASCII bytes of R23's row. -/
def mnemonicName : Mnemonic → Byte × Byte × Byte
  | .adc => (0x41, 0x44, 0x43)
  | .and => (0x41, 0x4E, 0x44)
  | .asl => (0x41, 0x53, 0x4C)
  | .bcc => (0x42, 0x43, 0x43)
  | .bcs => (0x42, 0x43, 0x53)
  | .beq => (0x42, 0x45, 0x51)
  | .bit => (0x42, 0x49, 0x54)
  | .bmi => (0x42, 0x4D, 0x49)
  | .bne => (0x42, 0x4E, 0x45)
  | .bpl => (0x42, 0x50, 0x4C)
  | .brk => (0x42, 0x52, 0x4B)
  | .bvc => (0x42, 0x56, 0x43)
  | .bvs => (0x42, 0x56, 0x53)
  | .clc => (0x43, 0x4C, 0x43)
  | .cld => (0x43, 0x4C, 0x44)
  | .cli => (0x43, 0x4C, 0x49)
  | .clv => (0x43, 0x4C, 0x56)
  | .cmp => (0x43, 0x4D, 0x50)
  | .cpx => (0x43, 0x50, 0x58)
  | .cpy => (0x43, 0x50, 0x59)
  | .dec => (0x44, 0x45, 0x43)
  | .dex => (0x44, 0x45, 0x58)
  | .dey => (0x44, 0x45, 0x59)
  | .eor => (0x45, 0x4F, 0x52)
  | .inc => (0x49, 0x4E, 0x43)
  | .inx => (0x49, 0x4E, 0x58)
  | .iny => (0x49, 0x4E, 0x59)
  | .jmp => (0x4A, 0x4D, 0x50)
  | .jsr => (0x4A, 0x53, 0x52)
  | .lda => (0x4C, 0x44, 0x41)
  | .ldx => (0x4C, 0x44, 0x58)
  | .ldy => (0x4C, 0x44, 0x59)
  | .lsr => (0x4C, 0x53, 0x52)
  | .nop => (0x4E, 0x4F, 0x50)
  | .ora => (0x4F, 0x52, 0x41)
  | .pha => (0x50, 0x48, 0x41)
  | .php => (0x50, 0x48, 0x50)
  | .pla => (0x50, 0x4C, 0x41)
  | .plp => (0x50, 0x4C, 0x50)
  | .rol => (0x52, 0x4F, 0x4C)
  | .ror => (0x52, 0x4F, 0x52)
  | .rti => (0x52, 0x54, 0x49)
  | .rts => (0x52, 0x54, 0x53)
  | .sbc => (0x53, 0x42, 0x43)
  | .sec => (0x53, 0x45, 0x43)
  | .sed => (0x53, 0x45, 0x44)
  | .sei => (0x53, 0x45, 0x49)
  | .sta => (0x53, 0x54, 0x41)
  | .stx => (0x53, 0x54, 0x58)
  | .sty => (0x53, 0x54, 0x59)
  | .tax => (0x54, 0x41, 0x58)
  | .tay => (0x54, 0x41, 0x59)
  | .tsx => (0x54, 0x53, 0x58)
  | .txa => (0x54, 0x58, 0x41)
  | .txs => (0x54, 0x58, 0x53)
  | .tya => (0x54, 0x59, 0x41)

/-- A mnemonic's name as a text (R80 compares texts byte for byte). -/
def Mnemonic.name (m : Mnemonic) : Text :=
  [(mnemonicName m).1, (mnemonicName m).2.1, (mnemonicName m).2.2]

/-! ### The opcode map (R66, 30_encoding.md): one list per row `opcode[7:4]`

The contents are the documented 6502 set, which the spec takes from general knowledge but for eight opcodes that its
source gives (R64, D1, G2). PRESUMED, unsafe: log entry 8. The CPY entries are keyed by CPY (R85, conflict C1). -/

/-- The entries of row 0x of R66. -/
def opcodeRow0 : List Entry :=
  [⟨.brk, .implied, 0x00⟩, ⟨.ora, .indirectX, 0x01⟩, ⟨.ora, .zeroPage, 0x05⟩, ⟨.asl, .zeroPage, 0x06⟩,
   ⟨.php, .implied, 0x08⟩, ⟨.ora, .immediate, 0x09⟩, ⟨.asl, .accumulator, 0x0A⟩, ⟨.ora, .absolute, 0x0D⟩,
   ⟨.asl, .absolute, 0x0E⟩]

/-- The entries of row 1x of R66. -/
def opcodeRow1 : List Entry :=
  [⟨.bpl, .relative, 0x10⟩, ⟨.ora, .indirectY, 0x11⟩, ⟨.ora, .zeroPageX, 0x15⟩, ⟨.asl, .zeroPageX, 0x16⟩,
   ⟨.clc, .implied, 0x18⟩, ⟨.ora, .absoluteY, 0x19⟩, ⟨.ora, .absoluteX, 0x1D⟩, ⟨.asl, .absoluteX, 0x1E⟩]

/-- The entries of row 2x of R66. -/
def opcodeRow2 : List Entry :=
  [⟨.jsr, .absolute, 0x20⟩, ⟨.and, .indirectX, 0x21⟩, ⟨.bit, .zeroPage, 0x24⟩, ⟨.and, .zeroPage, 0x25⟩,
   ⟨.rol, .zeroPage, 0x26⟩, ⟨.plp, .implied, 0x28⟩, ⟨.and, .immediate, 0x29⟩, ⟨.rol, .accumulator, 0x2A⟩,
   ⟨.bit, .absolute, 0x2C⟩, ⟨.and, .absolute, 0x2D⟩, ⟨.rol, .absolute, 0x2E⟩]

/-- The entries of row 3x of R66. -/
def opcodeRow3 : List Entry :=
  [⟨.bmi, .relative, 0x30⟩, ⟨.and, .indirectY, 0x31⟩, ⟨.and, .zeroPageX, 0x35⟩, ⟨.rol, .zeroPageX, 0x36⟩,
   ⟨.sec, .implied, 0x38⟩, ⟨.and, .absoluteY, 0x39⟩, ⟨.and, .absoluteX, 0x3D⟩, ⟨.rol, .absoluteX, 0x3E⟩]

/-- The entries of row 4x of R66. -/
def opcodeRow4 : List Entry :=
  [⟨.rti, .implied, 0x40⟩, ⟨.eor, .indirectX, 0x41⟩, ⟨.eor, .zeroPage, 0x45⟩, ⟨.lsr, .zeroPage, 0x46⟩,
   ⟨.pha, .implied, 0x48⟩, ⟨.eor, .immediate, 0x49⟩, ⟨.lsr, .accumulator, 0x4A⟩, ⟨.jmp, .absolute, 0x4C⟩,
   ⟨.eor, .absolute, 0x4D⟩, ⟨.lsr, .absolute, 0x4E⟩]

/-- The entries of row 5x of R66. -/
def opcodeRow5 : List Entry :=
  [⟨.bvc, .relative, 0x50⟩, ⟨.eor, .indirectY, 0x51⟩, ⟨.eor, .zeroPageX, 0x55⟩, ⟨.lsr, .zeroPageX, 0x56⟩,
   ⟨.cli, .implied, 0x58⟩, ⟨.eor, .absoluteY, 0x59⟩, ⟨.eor, .absoluteX, 0x5D⟩, ⟨.lsr, .absoluteX, 0x5E⟩]

/-- The entries of row 6x of R66. -/
def opcodeRow6 : List Entry :=
  [⟨.rts, .implied, 0x60⟩, ⟨.adc, .indirectX, 0x61⟩, ⟨.adc, .zeroPage, 0x65⟩, ⟨.ror, .zeroPage, 0x66⟩,
   ⟨.pla, .implied, 0x68⟩, ⟨.adc, .immediate, 0x69⟩, ⟨.ror, .accumulator, 0x6A⟩, ⟨.jmp, .indirect, 0x6C⟩,
   ⟨.adc, .absolute, 0x6D⟩, ⟨.ror, .absolute, 0x6E⟩]

/-- The entries of row 7x of R66. -/
def opcodeRow7 : List Entry :=
  [⟨.bvs, .relative, 0x70⟩, ⟨.adc, .indirectY, 0x71⟩, ⟨.adc, .zeroPageX, 0x75⟩, ⟨.ror, .zeroPageX, 0x76⟩,
   ⟨.sei, .implied, 0x78⟩, ⟨.adc, .absoluteY, 0x79⟩, ⟨.adc, .absoluteX, 0x7D⟩, ⟨.ror, .absoluteX, 0x7E⟩]

/-- The entries of row 8x of R66. -/
def opcodeRow8 : List Entry :=
  [⟨.sta, .indirectX, 0x81⟩, ⟨.sty, .zeroPage, 0x84⟩, ⟨.sta, .zeroPage, 0x85⟩, ⟨.stx, .zeroPage, 0x86⟩,
   ⟨.dey, .implied, 0x88⟩, ⟨.txa, .implied, 0x8A⟩, ⟨.sty, .absolute, 0x8C⟩, ⟨.sta, .absolute, 0x8D⟩,
   ⟨.stx, .absolute, 0x8E⟩]

/-- The entries of row 9x of R66. -/
def opcodeRow9 : List Entry :=
  [⟨.bcc, .relative, 0x90⟩, ⟨.sta, .indirectY, 0x91⟩, ⟨.sty, .zeroPageX, 0x94⟩, ⟨.sta, .zeroPageX, 0x95⟩,
   ⟨.stx, .zeroPageY, 0x96⟩, ⟨.tya, .implied, 0x98⟩, ⟨.sta, .absoluteY, 0x99⟩, ⟨.txs, .implied, 0x9A⟩,
   ⟨.sta, .absoluteX, 0x9D⟩]

/-- The entries of row Ax of R66. -/
def opcodeRowA : List Entry :=
  [⟨.ldy, .immediate, 0xA0⟩, ⟨.lda, .indirectX, 0xA1⟩, ⟨.ldx, .immediate, 0xA2⟩, ⟨.ldy, .zeroPage, 0xA4⟩,
   ⟨.lda, .zeroPage, 0xA5⟩, ⟨.ldx, .zeroPage, 0xA6⟩, ⟨.tay, .implied, 0xA8⟩, ⟨.lda, .immediate, 0xA9⟩,
   ⟨.tax, .implied, 0xAA⟩, ⟨.ldy, .absolute, 0xAC⟩, ⟨.lda, .absolute, 0xAD⟩, ⟨.ldx, .absolute, 0xAE⟩]

/-- The entries of row Bx of R66. -/
def opcodeRowB : List Entry :=
  [⟨.bcs, .relative, 0xB0⟩, ⟨.lda, .indirectY, 0xB1⟩, ⟨.ldy, .zeroPageX, 0xB4⟩, ⟨.lda, .zeroPageX, 0xB5⟩,
   ⟨.ldx, .zeroPageY, 0xB6⟩, ⟨.clv, .implied, 0xB8⟩, ⟨.lda, .absoluteY, 0xB9⟩, ⟨.tsx, .implied, 0xBA⟩,
   ⟨.ldy, .absoluteX, 0xBC⟩, ⟨.lda, .absoluteX, 0xBD⟩, ⟨.ldx, .absoluteY, 0xBE⟩]

/-- The entries of row Cx of R66. -/
def opcodeRowC : List Entry :=
  [⟨.cpy, .immediate, 0xC0⟩, ⟨.cmp, .indirectX, 0xC1⟩, ⟨.cpy, .zeroPage, 0xC4⟩, ⟨.cmp, .zeroPage, 0xC5⟩,
   ⟨.dec, .zeroPage, 0xC6⟩, ⟨.iny, .implied, 0xC8⟩, ⟨.cmp, .immediate, 0xC9⟩, ⟨.dex, .implied, 0xCA⟩,
   ⟨.cpy, .absolute, 0xCC⟩, ⟨.cmp, .absolute, 0xCD⟩, ⟨.dec, .absolute, 0xCE⟩]

/-- The entries of row Dx of R66. -/
def opcodeRowD : List Entry :=
  [⟨.bne, .relative, 0xD0⟩, ⟨.cmp, .indirectY, 0xD1⟩, ⟨.cmp, .zeroPageX, 0xD5⟩, ⟨.dec, .zeroPageX, 0xD6⟩,
   ⟨.cld, .implied, 0xD8⟩, ⟨.cmp, .absoluteY, 0xD9⟩, ⟨.cmp, .absoluteX, 0xDD⟩, ⟨.dec, .absoluteX, 0xDE⟩]

/-- The entries of row Ex of R66. -/
def opcodeRowE : List Entry :=
  [⟨.cpx, .immediate, 0xE0⟩, ⟨.sbc, .indirectX, 0xE1⟩, ⟨.cpx, .zeroPage, 0xE4⟩, ⟨.sbc, .zeroPage, 0xE5⟩,
   ⟨.inc, .zeroPage, 0xE6⟩, ⟨.inx, .implied, 0xE8⟩, ⟨.sbc, .immediate, 0xE9⟩, ⟨.nop, .implied, 0xEA⟩,
   ⟨.cpx, .absolute, 0xEC⟩, ⟨.sbc, .absolute, 0xED⟩, ⟨.inc, .absolute, 0xEE⟩]

/-- The entries of row Fx of R66. -/
def opcodeRowF : List Entry :=
  [⟨.beq, .relative, 0xF0⟩, ⟨.sbc, .indirectY, 0xF1⟩, ⟨.sbc, .zeroPageX, 0xF5⟩, ⟨.inc, .zeroPageX, 0xF6⟩,
   ⟨.sed, .implied, 0xF8⟩, ⟨.sbc, .absoluteY, 0xF9⟩, ⟨.sbc, .absoluteX, 0xFD⟩, ⟨.inc, .absoluteX, 0xFE⟩]

/-- The parameter OPCODE_ROM at its value for this hardware (R13, R66): all 151 rows, those of EXT_MODES among them. -/
def opcodeTable : List Entry :=
  opcodeRow0 ++ opcodeRow1 ++ opcodeRow2 ++ opcodeRow3 ++ opcodeRow4 ++ opcodeRow5 ++ opcodeRow6 ++ opcodeRow7 ++
  opcodeRow8 ++ opcodeRow9 ++ opcodeRowA ++ opcodeRowB ++ opcodeRowC ++ opcodeRowD ++ opcodeRowE ++ opcodeRowF

/-- The entries of `L` that exist under EXT_MODES (R12, R30, R69): without it, the entries of the two extension modes
are absent. -/
def tableFor (ext : Bool) (L : List Entry) : List Entry := L.filter (fun e => ext || !e.mode.isExt)

/-- The ROM of this hardware under EXT_MODES (R30, R66): 151 entries with it, 142 without. -/
def romFor (ext : Bool) : List Entry := tableFor ext opcodeTable

/-! ### The lookups (R80 to R82, 40_table_lookup.md) -/

/-- R80: some entry of the table has this text as its mnemonic's name. -/
def definedMnemonic (rom : List Entry) (m : Text) : Bool := rom.any (fun e => e.mnemonic.name == m)

/-- R81, the multiplexer in the encode direction: the opcode byte of (mnemonic text, mode). -/
def lookupOpcode (rom : List Entry) (m : Text) (mode : Mode) : Except BlockError Byte :=
  if definedMnemonic rom m then
    match rom.find? (fun e => e.mnemonic.name == m && e.mode == mode) with
    | some e => .ok e.opcode
    | none => .error (.unsupportedAddressingMode m mode)
  else .error (.unknownMnemonic m)

/-- R82, the decoder ROM read: the (mnemonic, mode) of an opcode byte. -/
def lookupInstruction (rom : List Entry) (b : Byte) : Except BlockError (Mnemonic × Mode) :=
  match rom.find? (fun e => e.opcode == b) with
  | some e => .ok (e.mnemonic, e.mode)
  | none => .error (.illegalOpcode b)

/-! ### The table as a 256-word ROM (R30, R71; the layout is the spec's own, D5) -/

/-- The 11-bit ROM word at an opcode byte (R71): bit 10 valid, bits 9:4 the mnemonic index, bits 3:0 the mode code, and
all bits 0 where the byte has no entry. -/
def romWord (rom : List Entry) (b : Byte) : BitVec 11 :=
  match rom.find? (fun e => e.opcode == b) with
  | some e => (1#1 ++ e.mnemonic.index) ++ e.mode.code
  | none => 0

/-- What a ROM word says (R71): nothing where bit 10 is 0, else the mnemonic of bits 9:4 and the mode of bits 3:0. -/
def readRomWord (ext : Bool) (w : BitVec 11) : Option (Mnemonic × Mode) :=
  if w.getLsbD 10 then
    match Mnemonic.ofIndex (w.extractLsb' 4 6), Mode.ofCode ext (w.extractLsb' 0 4) with
    | some m, some mode => some (m, mode)
    | _, _ => none
  else none

/-! ### The Decoder (R150, 43_decoder.md) -/

/-- R150: decode one instruction of a byte stream at a cursor. The opcode byte is looked up before the operand bytes are
counted (R151); the operand bytes are returned verbatim (R152). -/
def decode (rom : List Entry) (bytes : Bytes) (cursor : Nat) : Except BlockError Decoded :=
  match bytes.drop cursor with
  | [] => .error (.truncatedInstruction 1 0)
  | b :: rest =>
    match lookupInstruction rom b with
    | .error e => .error e
    | .ok (m, mode) =>
      if rest.length < mode.operandSize then .error (.truncatedInstruction mode.operandSize rest.length)
      else .ok ⟨m, mode, rest.take mode.operandSize, 1 + mode.operandSize⟩

/-! ### The Encoder (R100, 41_encoder.md) -/

/-- R100: the bytes of (mnemonic text, mode, operand bytes). The lookup's errors come before the size check (R102), and
no operand value is checked (R103). -/
def encode (rom : List Entry) (m : Text) (mode : Mode) (operandBytes : Bytes) : Except BlockError Bytes :=
  match lookupOpcode rom m mode with
  | .error e => .error e
  | .ok op =>
    if operandBytes.length ≠ mode.operandSize then
      .error (.operandSizeMismatch mode.operandSize operandBytes.length)
    else .ok ([op] ++ operandBytes)

/-- The numeric code of an error (R230; the spec's own, D11). -/
def BlockError.code : BlockError → Nat
  | .unknownMnemonic _ => 1
  | .unsupportedAddressingMode _ _ => 2
  | .illegalOpcode _ => 3
  | .operandSizeMismatch _ _ => 4
  | .truncatedInstruction _ _ => 5
  | .duplicateTableEntry _ => 6
  | .noEffectiveAddress _ => 7

/-! ### A decoded instruction as an `Instr`: one function per mode, one arm per row of 44_instructions.md -/

/-- The Accumulator row of each mnemonic that has one. -/
def Instr.ofAccumulator (m : Mnemonic) : Option Instr :=
  match m with
  | .asl => some .aslAcc
  | .lsr => some .lsrAcc
  | .rol => some .rolAcc
  | .ror => some .rorAcc
  | _ => none

/-- The Implied row of each mnemonic that has one. -/
def Instr.ofImplied (m : Mnemonic) : Option Instr :=
  match m with
  | .brk => some .brkImp
  | .clc => some .clcImp
  | .cld => some .cldImp
  | .cli => some .cliImp
  | .clv => some .clvImp
  | .dex => some .dexImp
  | .dey => some .deyImp
  | .inx => some .inxImp
  | .iny => some .inyImp
  | .nop => some .nopImp
  | .pha => some .phaImp
  | .php => some .phpImp
  | .pla => some .plaImp
  | .plp => some .plpImp
  | .rti => some .rtiImp
  | .rts => some .rtsImp
  | .sec => some .secImp
  | .sed => some .sedImp
  | .sei => some .seiImp
  | .tax => some .taxImp
  | .tay => some .tayImp
  | .tsx => some .tsxImp
  | .txa => some .txaImp
  | .txs => some .txsImp
  | .tya => some .tyaImp
  | _ => none

/-- The Immediate row of each mnemonic that has one. -/
def Instr.ofImmediate (m : Mnemonic) (n : Byte) : Option Instr :=
  match m with
  | .adc => some (.adcImm n)
  | .and => some (.andImm n)
  | .cmp => some (.cmpImm n)
  | .cpx => some (.cpxImm n)
  | .cpy => some (.cpyImm n)
  | .eor => some (.eorImm n)
  | .lda => some (.ldaImm n)
  | .ldx => some (.ldxImm n)
  | .ldy => some (.ldyImm n)
  | .ora => some (.oraImm n)
  | .sbc => some (.sbcImm n)
  | _ => none

/-- The ZeroPage row of each mnemonic that has one. -/
def Instr.ofZeroPage (m : Mnemonic) (n : Byte) : Option Instr :=
  match m with
  | .adc => some (.adcZp n)
  | .and => some (.andZp n)
  | .asl => some (.aslZp n)
  | .bit => some (.bitZp n)
  | .cmp => some (.cmpZp n)
  | .cpx => some (.cpxZp n)
  | .cpy => some (.cpyZp n)
  | .dec => some (.decZp n)
  | .eor => some (.eorZp n)
  | .inc => some (.incZp n)
  | .lda => some (.ldaZp n)
  | .ldx => some (.ldxZp n)
  | .ldy => some (.ldyZp n)
  | .lsr => some (.lsrZp n)
  | .ora => some (.oraZp n)
  | .rol => some (.rolZp n)
  | .ror => some (.rorZp n)
  | .sbc => some (.sbcZp n)
  | .sta => some (.staZp n)
  | .stx => some (.stxZp n)
  | .sty => some (.styZp n)
  | _ => none

/-- The ZeroPageX row of each mnemonic that has one. -/
def Instr.ofZeroPageX (m : Mnemonic) (n : Byte) : Option Instr :=
  match m with
  | .adc => some (.adcZpx n)
  | .and => some (.andZpx n)
  | .asl => some (.aslZpx n)
  | .cmp => some (.cmpZpx n)
  | .dec => some (.decZpx n)
  | .eor => some (.eorZpx n)
  | .inc => some (.incZpx n)
  | .lda => some (.ldaZpx n)
  | .ldy => some (.ldyZpx n)
  | .lsr => some (.lsrZpx n)
  | .ora => some (.oraZpx n)
  | .rol => some (.rolZpx n)
  | .ror => some (.rorZpx n)
  | .sbc => some (.sbcZpx n)
  | .sta => some (.staZpx n)
  | .sty => some (.styZpx n)
  | _ => none

/-- The ZeroPageY row of each mnemonic that has one. -/
def Instr.ofZeroPageY (m : Mnemonic) (n : Byte) : Option Instr :=
  match m with
  | .ldx => some (.ldxZpy n)
  | .stx => some (.stxZpy n)
  | _ => none

/-- The Absolute row of each mnemonic that has one. -/
def Instr.ofAbsolute (m : Mnemonic) (lo hi : Byte) : Option Instr :=
  match m with
  | .adc => some (.adcAbs lo hi)
  | .and => some (.andAbs lo hi)
  | .asl => some (.aslAbs lo hi)
  | .bit => some (.bitAbs lo hi)
  | .cmp => some (.cmpAbs lo hi)
  | .cpx => some (.cpxAbs lo hi)
  | .cpy => some (.cpyAbs lo hi)
  | .dec => some (.decAbs lo hi)
  | .eor => some (.eorAbs lo hi)
  | .inc => some (.incAbs lo hi)
  | .jmp => some (.jmpAbs lo hi)
  | .jsr => some (.jsrAbs lo hi)
  | .lda => some (.ldaAbs lo hi)
  | .ldx => some (.ldxAbs lo hi)
  | .ldy => some (.ldyAbs lo hi)
  | .lsr => some (.lsrAbs lo hi)
  | .ora => some (.oraAbs lo hi)
  | .rol => some (.rolAbs lo hi)
  | .ror => some (.rorAbs lo hi)
  | .sbc => some (.sbcAbs lo hi)
  | .sta => some (.staAbs lo hi)
  | .stx => some (.stxAbs lo hi)
  | .sty => some (.styAbs lo hi)
  | _ => none

/-- The AbsoluteX row of each mnemonic that has one. -/
def Instr.ofAbsoluteX (m : Mnemonic) (lo hi : Byte) : Option Instr :=
  match m with
  | .adc => some (.adcAbx lo hi)
  | .and => some (.andAbx lo hi)
  | .asl => some (.aslAbx lo hi)
  | .cmp => some (.cmpAbx lo hi)
  | .dec => some (.decAbx lo hi)
  | .eor => some (.eorAbx lo hi)
  | .inc => some (.incAbx lo hi)
  | .lda => some (.ldaAbx lo hi)
  | .ldy => some (.ldyAbx lo hi)
  | .lsr => some (.lsrAbx lo hi)
  | .ora => some (.oraAbx lo hi)
  | .rol => some (.rolAbx lo hi)
  | .ror => some (.rorAbx lo hi)
  | .sbc => some (.sbcAbx lo hi)
  | .sta => some (.staAbx lo hi)
  | _ => none

/-- The AbsoluteY row of each mnemonic that has one. -/
def Instr.ofAbsoluteY (m : Mnemonic) (lo hi : Byte) : Option Instr :=
  match m with
  | .adc => some (.adcAby lo hi)
  | .and => some (.andAby lo hi)
  | .cmp => some (.cmpAby lo hi)
  | .eor => some (.eorAby lo hi)
  | .lda => some (.ldaAby lo hi)
  | .ldx => some (.ldxAby lo hi)
  | .ora => some (.oraAby lo hi)
  | .sbc => some (.sbcAby lo hi)
  | .sta => some (.staAby lo hi)
  | _ => none

/-- The IndirectX row of each mnemonic that has one. -/
def Instr.ofIndirectX (m : Mnemonic) (n : Byte) : Option Instr :=
  match m with
  | .adc => some (.adcIzx n)
  | .and => some (.andIzx n)
  | .cmp => some (.cmpIzx n)
  | .eor => some (.eorIzx n)
  | .lda => some (.ldaIzx n)
  | .ora => some (.oraIzx n)
  | .sbc => some (.sbcIzx n)
  | .sta => some (.staIzx n)
  | _ => none

/-- The IndirectY row of each mnemonic that has one. -/
def Instr.ofIndirectY (m : Mnemonic) (n : Byte) : Option Instr :=
  match m with
  | .adc => some (.adcIzy n)
  | .and => some (.andIzy n)
  | .cmp => some (.cmpIzy n)
  | .eor => some (.eorIzy n)
  | .lda => some (.ldaIzy n)
  | .ora => some (.oraIzy n)
  | .sbc => some (.sbcIzy n)
  | .sta => some (.staIzy n)
  | _ => none

/-- The Relative row of each mnemonic that has one. -/
def Instr.ofRelative (m : Mnemonic) (n : Byte) : Option Instr :=
  match m with
  | .bcc => some (.bccRel n)
  | .bcs => some (.bcsRel n)
  | .beq => some (.beqRel n)
  | .bmi => some (.bmiRel n)
  | .bne => some (.bneRel n)
  | .bpl => some (.bplRel n)
  | .bvc => some (.bvcRel n)
  | .bvs => some (.bvsRel n)
  | _ => none

/-- The Indirect row of each mnemonic that has one. -/
def Instr.ofIndirect (m : Mnemonic) (lo hi : Byte) : Option Instr :=
  match m with
  | .jmp => some (.jmpInd lo hi)
  | _ => none

/-- The instruction that a decoded (mnemonic, mode, operand bytes) is, if it is a row of the opcode table. A table other
than R66's (R13) may hold pairs that are no row: `none`. -/
def Instr.ofTriple (m : Mnemonic) (mode : Mode) (operands : Bytes) : Option Instr :=
  match mode, operands with
  | .accumulator, [] => Instr.ofAccumulator m
  | .implied, [] => Instr.ofImplied m
  | .immediate, [n] => Instr.ofImmediate m n
  | .zeroPage, [n] => Instr.ofZeroPage m n
  | .zeroPageX, [n] => Instr.ofZeroPageX m n
  | .zeroPageY, [n] => Instr.ofZeroPageY m n
  | .absolute, [lo, hi] => Instr.ofAbsolute m lo hi
  | .absoluteX, [lo, hi] => Instr.ofAbsoluteX m lo hi
  | .absoluteY, [lo, hi] => Instr.ofAbsoluteY m lo hi
  | .indirectX, [n] => Instr.ofIndirectX m n
  | .indirectY, [n] => Instr.ofIndirectY m n
  | .relative, [n] => Instr.ofRelative m n
  | .indirect, [lo, hi] => Instr.ofIndirect m lo hi
  | _, _ => none

/-- The (mnemonic, mode, operand bytes) of an instruction: the triple the block receives (R72), by the rows of
44_instructions.md. -/
def Instr.triple : Instr → Mnemonic × Mode × Bytes
  | .adcImm n => (.adc, .immediate, [n])
  | .adcZp n => (.adc, .zeroPage, [n])
  | .adcZpx n => (.adc, .zeroPageX, [n])
  | .adcAbs lo hi => (.adc, .absolute, [lo, hi])
  | .adcAbx lo hi => (.adc, .absoluteX, [lo, hi])
  | .adcAby lo hi => (.adc, .absoluteY, [lo, hi])
  | .adcIzx n => (.adc, .indirectX, [n])
  | .adcIzy n => (.adc, .indirectY, [n])
  | .andImm n => (.and, .immediate, [n])
  | .andZp n => (.and, .zeroPage, [n])
  | .andZpx n => (.and, .zeroPageX, [n])
  | .andAbs lo hi => (.and, .absolute, [lo, hi])
  | .andAbx lo hi => (.and, .absoluteX, [lo, hi])
  | .andAby lo hi => (.and, .absoluteY, [lo, hi])
  | .andIzx n => (.and, .indirectX, [n])
  | .andIzy n => (.and, .indirectY, [n])
  | .aslAcc => (.asl, .accumulator, [])
  | .aslZp n => (.asl, .zeroPage, [n])
  | .aslZpx n => (.asl, .zeroPageX, [n])
  | .aslAbs lo hi => (.asl, .absolute, [lo, hi])
  | .aslAbx lo hi => (.asl, .absoluteX, [lo, hi])
  | .bccRel n => (.bcc, .relative, [n])
  | .bcsRel n => (.bcs, .relative, [n])
  | .beqRel n => (.beq, .relative, [n])
  | .bitZp n => (.bit, .zeroPage, [n])
  | .bitAbs lo hi => (.bit, .absolute, [lo, hi])
  | .bmiRel n => (.bmi, .relative, [n])
  | .bneRel n => (.bne, .relative, [n])
  | .bplRel n => (.bpl, .relative, [n])
  | .brkImp => (.brk, .implied, [])
  | .bvcRel n => (.bvc, .relative, [n])
  | .bvsRel n => (.bvs, .relative, [n])
  | .clcImp => (.clc, .implied, [])
  | .cldImp => (.cld, .implied, [])
  | .cliImp => (.cli, .implied, [])
  | .clvImp => (.clv, .implied, [])
  | .cmpImm n => (.cmp, .immediate, [n])
  | .cmpZp n => (.cmp, .zeroPage, [n])
  | .cmpZpx n => (.cmp, .zeroPageX, [n])
  | .cmpAbs lo hi => (.cmp, .absolute, [lo, hi])
  | .cmpAbx lo hi => (.cmp, .absoluteX, [lo, hi])
  | .cmpAby lo hi => (.cmp, .absoluteY, [lo, hi])
  | .cmpIzx n => (.cmp, .indirectX, [n])
  | .cmpIzy n => (.cmp, .indirectY, [n])
  | .cpxImm n => (.cpx, .immediate, [n])
  | .cpxZp n => (.cpx, .zeroPage, [n])
  | .cpxAbs lo hi => (.cpx, .absolute, [lo, hi])
  | .cpyImm n => (.cpy, .immediate, [n])
  | .cpyZp n => (.cpy, .zeroPage, [n])
  | .cpyAbs lo hi => (.cpy, .absolute, [lo, hi])
  | .decZp n => (.dec, .zeroPage, [n])
  | .decZpx n => (.dec, .zeroPageX, [n])
  | .decAbs lo hi => (.dec, .absolute, [lo, hi])
  | .decAbx lo hi => (.dec, .absoluteX, [lo, hi])
  | .dexImp => (.dex, .implied, [])
  | .deyImp => (.dey, .implied, [])
  | .eorImm n => (.eor, .immediate, [n])
  | .eorZp n => (.eor, .zeroPage, [n])
  | .eorZpx n => (.eor, .zeroPageX, [n])
  | .eorAbs lo hi => (.eor, .absolute, [lo, hi])
  | .eorAbx lo hi => (.eor, .absoluteX, [lo, hi])
  | .eorAby lo hi => (.eor, .absoluteY, [lo, hi])
  | .eorIzx n => (.eor, .indirectX, [n])
  | .eorIzy n => (.eor, .indirectY, [n])
  | .incZp n => (.inc, .zeroPage, [n])
  | .incZpx n => (.inc, .zeroPageX, [n])
  | .incAbs lo hi => (.inc, .absolute, [lo, hi])
  | .incAbx lo hi => (.inc, .absoluteX, [lo, hi])
  | .inxImp => (.inx, .implied, [])
  | .inyImp => (.iny, .implied, [])
  | .jmpAbs lo hi => (.jmp, .absolute, [lo, hi])
  | .jmpInd lo hi => (.jmp, .indirect, [lo, hi])
  | .jsrAbs lo hi => (.jsr, .absolute, [lo, hi])
  | .ldaImm n => (.lda, .immediate, [n])
  | .ldaZp n => (.lda, .zeroPage, [n])
  | .ldaZpx n => (.lda, .zeroPageX, [n])
  | .ldaAbs lo hi => (.lda, .absolute, [lo, hi])
  | .ldaAbx lo hi => (.lda, .absoluteX, [lo, hi])
  | .ldaAby lo hi => (.lda, .absoluteY, [lo, hi])
  | .ldaIzx n => (.lda, .indirectX, [n])
  | .ldaIzy n => (.lda, .indirectY, [n])
  | .ldxImm n => (.ldx, .immediate, [n])
  | .ldxZp n => (.ldx, .zeroPage, [n])
  | .ldxZpy n => (.ldx, .zeroPageY, [n])
  | .ldxAbs lo hi => (.ldx, .absolute, [lo, hi])
  | .ldxAby lo hi => (.ldx, .absoluteY, [lo, hi])
  | .ldyImm n => (.ldy, .immediate, [n])
  | .ldyZp n => (.ldy, .zeroPage, [n])
  | .ldyZpx n => (.ldy, .zeroPageX, [n])
  | .ldyAbs lo hi => (.ldy, .absolute, [lo, hi])
  | .ldyAbx lo hi => (.ldy, .absoluteX, [lo, hi])
  | .lsrAcc => (.lsr, .accumulator, [])
  | .lsrZp n => (.lsr, .zeroPage, [n])
  | .lsrZpx n => (.lsr, .zeroPageX, [n])
  | .lsrAbs lo hi => (.lsr, .absolute, [lo, hi])
  | .lsrAbx lo hi => (.lsr, .absoluteX, [lo, hi])
  | .nopImp => (.nop, .implied, [])
  | .oraImm n => (.ora, .immediate, [n])
  | .oraZp n => (.ora, .zeroPage, [n])
  | .oraZpx n => (.ora, .zeroPageX, [n])
  | .oraAbs lo hi => (.ora, .absolute, [lo, hi])
  | .oraAbx lo hi => (.ora, .absoluteX, [lo, hi])
  | .oraAby lo hi => (.ora, .absoluteY, [lo, hi])
  | .oraIzx n => (.ora, .indirectX, [n])
  | .oraIzy n => (.ora, .indirectY, [n])
  | .phaImp => (.pha, .implied, [])
  | .phpImp => (.php, .implied, [])
  | .plaImp => (.pla, .implied, [])
  | .plpImp => (.plp, .implied, [])
  | .rolAcc => (.rol, .accumulator, [])
  | .rolZp n => (.rol, .zeroPage, [n])
  | .rolZpx n => (.rol, .zeroPageX, [n])
  | .rolAbs lo hi => (.rol, .absolute, [lo, hi])
  | .rolAbx lo hi => (.rol, .absoluteX, [lo, hi])
  | .rorAcc => (.ror, .accumulator, [])
  | .rorZp n => (.ror, .zeroPage, [n])
  | .rorZpx n => (.ror, .zeroPageX, [n])
  | .rorAbs lo hi => (.ror, .absolute, [lo, hi])
  | .rorAbx lo hi => (.ror, .absoluteX, [lo, hi])
  | .rtiImp => (.rti, .implied, [])
  | .rtsImp => (.rts, .implied, [])
  | .sbcImm n => (.sbc, .immediate, [n])
  | .sbcZp n => (.sbc, .zeroPage, [n])
  | .sbcZpx n => (.sbc, .zeroPageX, [n])
  | .sbcAbs lo hi => (.sbc, .absolute, [lo, hi])
  | .sbcAbx lo hi => (.sbc, .absoluteX, [lo, hi])
  | .sbcAby lo hi => (.sbc, .absoluteY, [lo, hi])
  | .sbcIzx n => (.sbc, .indirectX, [n])
  | .sbcIzy n => (.sbc, .indirectY, [n])
  | .secImp => (.sec, .implied, [])
  | .sedImp => (.sed, .implied, [])
  | .seiImp => (.sei, .implied, [])
  | .staZp n => (.sta, .zeroPage, [n])
  | .staZpx n => (.sta, .zeroPageX, [n])
  | .staAbs lo hi => (.sta, .absolute, [lo, hi])
  | .staAbx lo hi => (.sta, .absoluteX, [lo, hi])
  | .staAby lo hi => (.sta, .absoluteY, [lo, hi])
  | .staIzx n => (.sta, .indirectX, [n])
  | .staIzy n => (.sta, .indirectY, [n])
  | .stxZp n => (.stx, .zeroPage, [n])
  | .stxZpy n => (.stx, .zeroPageY, [n])
  | .stxAbs lo hi => (.stx, .absolute, [lo, hi])
  | .styZp n => (.sty, .zeroPage, [n])
  | .styZpx n => (.sty, .zeroPageX, [n])
  | .styAbs lo hi => (.sty, .absolute, [lo, hi])
  | .taxImp => (.tax, .implied, [])
  | .tayImp => (.tay, .implied, [])
  | .tsxImp => (.tsx, .implied, [])
  | .txaImp => (.txa, .implied, [])
  | .txsImp => (.txs, .implied, [])
  | .tyaImp => (.tya, .implied, [])

/-- An instruction's mnemonic. -/
def Instr.mnemonic (i : Instr) : Mnemonic := i.triple.1

/-- An instruction's addressing mode. -/
def Instr.mode (i : Instr) : Mode := i.triple.2.1

/-- An instruction's operand bytes, in stream order. -/
def Instr.operands (i : Instr) : Bytes := i.triple.2.2

/-- The bytes of an instruction, its opcode written out from its rule's row (44_instructions.md, R160 to R215), not from
the map above. -/
def encodeInstr : Instr → Bytes
  | .adcImm n => [0x69, n]
  | .adcZp n => [0x65, n]
  | .adcZpx n => [0x75, n]
  | .adcAbs lo hi => [0x6D, lo, hi]
  | .adcAbx lo hi => [0x7D, lo, hi]
  | .adcAby lo hi => [0x79, lo, hi]
  | .adcIzx n => [0x61, n]
  | .adcIzy n => [0x71, n]
  | .andImm n => [0x29, n]
  | .andZp n => [0x25, n]
  | .andZpx n => [0x35, n]
  | .andAbs lo hi => [0x2D, lo, hi]
  | .andAbx lo hi => [0x3D, lo, hi]
  | .andAby lo hi => [0x39, lo, hi]
  | .andIzx n => [0x21, n]
  | .andIzy n => [0x31, n]
  | .aslAcc => [0x0A]
  | .aslZp n => [0x06, n]
  | .aslZpx n => [0x16, n]
  | .aslAbs lo hi => [0x0E, lo, hi]
  | .aslAbx lo hi => [0x1E, lo, hi]
  | .bccRel n => [0x90, n]
  | .bcsRel n => [0xB0, n]
  | .beqRel n => [0xF0, n]
  | .bitZp n => [0x24, n]
  | .bitAbs lo hi => [0x2C, lo, hi]
  | .bmiRel n => [0x30, n]
  | .bneRel n => [0xD0, n]
  | .bplRel n => [0x10, n]
  | .brkImp => [0x00]
  | .bvcRel n => [0x50, n]
  | .bvsRel n => [0x70, n]
  | .clcImp => [0x18]
  | .cldImp => [0xD8]
  | .cliImp => [0x58]
  | .clvImp => [0xB8]
  | .cmpImm n => [0xC9, n]
  | .cmpZp n => [0xC5, n]
  | .cmpZpx n => [0xD5, n]
  | .cmpAbs lo hi => [0xCD, lo, hi]
  | .cmpAbx lo hi => [0xDD, lo, hi]
  | .cmpAby lo hi => [0xD9, lo, hi]
  | .cmpIzx n => [0xC1, n]
  | .cmpIzy n => [0xD1, n]
  | .cpxImm n => [0xE0, n]
  | .cpxZp n => [0xE4, n]
  | .cpxAbs lo hi => [0xEC, lo, hi]
  | .cpyImm n => [0xC0, n]
  | .cpyZp n => [0xC4, n]
  | .cpyAbs lo hi => [0xCC, lo, hi]
  | .decZp n => [0xC6, n]
  | .decZpx n => [0xD6, n]
  | .decAbs lo hi => [0xCE, lo, hi]
  | .decAbx lo hi => [0xDE, lo, hi]
  | .dexImp => [0xCA]
  | .deyImp => [0x88]
  | .eorImm n => [0x49, n]
  | .eorZp n => [0x45, n]
  | .eorZpx n => [0x55, n]
  | .eorAbs lo hi => [0x4D, lo, hi]
  | .eorAbx lo hi => [0x5D, lo, hi]
  | .eorAby lo hi => [0x59, lo, hi]
  | .eorIzx n => [0x41, n]
  | .eorIzy n => [0x51, n]
  | .incZp n => [0xE6, n]
  | .incZpx n => [0xF6, n]
  | .incAbs lo hi => [0xEE, lo, hi]
  | .incAbx lo hi => [0xFE, lo, hi]
  | .inxImp => [0xE8]
  | .inyImp => [0xC8]
  | .jmpAbs lo hi => [0x4C, lo, hi]
  | .jmpInd lo hi => [0x6C, lo, hi]
  | .jsrAbs lo hi => [0x20, lo, hi]
  | .ldaImm n => [0xA9, n]
  | .ldaZp n => [0xA5, n]
  | .ldaZpx n => [0xB5, n]
  | .ldaAbs lo hi => [0xAD, lo, hi]
  | .ldaAbx lo hi => [0xBD, lo, hi]
  | .ldaAby lo hi => [0xB9, lo, hi]
  | .ldaIzx n => [0xA1, n]
  | .ldaIzy n => [0xB1, n]
  | .ldxImm n => [0xA2, n]
  | .ldxZp n => [0xA6, n]
  | .ldxZpy n => [0xB6, n]
  | .ldxAbs lo hi => [0xAE, lo, hi]
  | .ldxAby lo hi => [0xBE, lo, hi]
  | .ldyImm n => [0xA0, n]
  | .ldyZp n => [0xA4, n]
  | .ldyZpx n => [0xB4, n]
  | .ldyAbs lo hi => [0xAC, lo, hi]
  | .ldyAbx lo hi => [0xBC, lo, hi]
  | .lsrAcc => [0x4A]
  | .lsrZp n => [0x46, n]
  | .lsrZpx n => [0x56, n]
  | .lsrAbs lo hi => [0x4E, lo, hi]
  | .lsrAbx lo hi => [0x5E, lo, hi]
  | .nopImp => [0xEA]
  | .oraImm n => [0x09, n]
  | .oraZp n => [0x05, n]
  | .oraZpx n => [0x15, n]
  | .oraAbs lo hi => [0x0D, lo, hi]
  | .oraAbx lo hi => [0x1D, lo, hi]
  | .oraAby lo hi => [0x19, lo, hi]
  | .oraIzx n => [0x01, n]
  | .oraIzy n => [0x11, n]
  | .phaImp => [0x48]
  | .phpImp => [0x08]
  | .plaImp => [0x68]
  | .plpImp => [0x28]
  | .rolAcc => [0x2A]
  | .rolZp n => [0x26, n]
  | .rolZpx n => [0x36, n]
  | .rolAbs lo hi => [0x2E, lo, hi]
  | .rolAbx lo hi => [0x3E, lo, hi]
  | .rorAcc => [0x6A]
  | .rorZp n => [0x66, n]
  | .rorZpx n => [0x76, n]
  | .rorAbs lo hi => [0x6E, lo, hi]
  | .rorAbx lo hi => [0x7E, lo, hi]
  | .rtiImp => [0x40]
  | .rtsImp => [0x60]
  | .sbcImm n => [0xE9, n]
  | .sbcZp n => [0xE5, n]
  | .sbcZpx n => [0xF5, n]
  | .sbcAbs lo hi => [0xED, lo, hi]
  | .sbcAbx lo hi => [0xFD, lo, hi]
  | .sbcAby lo hi => [0xF9, lo, hi]
  | .sbcIzx n => [0xE1, n]
  | .sbcIzy n => [0xF1, n]
  | .secImp => [0x38]
  | .sedImp => [0xF8]
  | .seiImp => [0x78]
  | .staZp n => [0x85, n]
  | .staZpx n => [0x95, n]
  | .staAbs lo hi => [0x8D, lo, hi]
  | .staAbx lo hi => [0x9D, lo, hi]
  | .staAby lo hi => [0x99, lo, hi]
  | .staIzx n => [0x81, n]
  | .staIzy n => [0x91, n]
  | .stxZp n => [0x86, n]
  | .stxZpy n => [0x96, n]
  | .stxAbs lo hi => [0x8E, lo, hi]
  | .styZp n => [0x84, n]
  | .styZpx n => [0x94, n]
  | .styAbs lo hi => [0x8C, lo, hi]
  | .taxImp => [0xAA]
  | .tayImp => [0xA8]
  | .tsxImp => [0xBA]
  | .txaImp => [0x8A]
  | .txsImp => [0x9A]
  | .tyaImp => [0x98]

/-- The three bytes of an instruction whose bits are numbered as spec/opcode_table.json numbers them: bit 0 is the least
significant bit of the first byte. Bits at and above `nbits` are 0. -/
def tableBytes (nbits w : Nat) : Bytes :=
  let v := w % 2 ^ nbits
  [BitVec.ofNat 8 v, BitVec.ofNat 8 (v / 256), BitVec.ofNat 8 (v / 65536)]

/-- The instruction the Decoder reads from an instruction whose bits are `w`, with the whole opcode table: the rows of
EXT_MODES too (log entry 2). -/
def decodeTableWord (nbits w : Nat) : Option Instr :=
  match decode (romFor true) (tableBytes nbits w) 0 with
  | .ok d => Instr.ofTriple d.mnemonic d.mode d.operands
  | .error _ => none

end Sys2Proof
end

