-- ==== Sys2Proof/Machine/Flags.lean ====
section
/-! DEFINITION. The one flag the block produces, `pageCrossed` (R32, R121), the pages it compares, and the adder whose
carry it is (R132). -/

namespace Sys2Proof.Machine

/-- `hi(v) = v[15:8]` (R14); the page of a 16-bit address is its high byte (R18, R42). -/
def hiByte (v : Word) : Byte := v.extractLsb' 8 8

/-- `lo(v) = v[7:0]` (R14). -/
def loByte (v : Word) : Byte := v.extractLsb' 0 8

/-- The 16-bit value with the given low and high bytes, `(zext_16(hi) << 8) | zext_16(lo)` (R44, R45). -/
def wordOf (lo hi : Byte) : Word := (hi.setWidth 16 <<< 8) ||| lo.setWidth 16

/-- R121: the result lies in a different page than its base. -/
def pageCrossed (base ea : Word) : Bool := hiByte base != hiByte ea

/-- R132: the 8-bit adder. The 9-bit sum of two bytes, as its carry (bit 8) and its low byte (bits 7:0). -/
def adder8 (a i : Byte) : Bool × Byte :=
  let sum : BitVec 9 := a.setWidth 9 + i.setWidth 9
  (sum.getLsbD 8, sum.extractLsb' 0 8)

end Sys2Proof.Machine
end

