-- ==== Sys2Proof/Machine/Operands.lean ====
section
/-! DEFINITION. Operand forms: how a mode's operand bytes are read (R45, R63), and the Effective-Address Resolver
(42_effective_address.md), once by its formulas (R122 to R131) and once as the adder of R132. -/

namespace Sys2Proof.Machine

/-- R45: the Word a caller passes to the Resolver for decoded operand bytes; with no operand byte there is none. -/
def operandWord : Bytes → Option Word
  | [b] => some (b.setWidth 16)
  | [lo, hi] => some (wordOf lo hi)
  | _ => none

/-- R63: how a mode's operand bytes are read, before any address arithmetic. A byte count that is not the mode's reads
as nothing. -/
def operandReading (mode : Mode) (operandBytes : Bytes) : Option OperandReading :=
  match mode, operandBytes with
  | .accumulator, [] => some .accumulator
  | .implied, [] => some .noOperand
  | .immediate, [n] => some (.value n)
  | .zeroPage, [ll] => some (.zeroPageAddress (ll.setWidth 16))
  | .zeroPageX, [ll] => some (.zeroPageBase ll)
  | .zeroPageY, [ll] => some (.zeroPageBase ll)
  | .absolute, [ll, hh] => some (.address (wordOf ll hh))
  | .absoluteX, [ll, hh] => some (.address (wordOf ll hh))
  | .absoluteY, [ll, hh] => some (.address (wordOf ll hh))
  | .indirectX, [ll] => some (.pointerTableBase ll)
  | .indirectY, [ll] => some (.pointerAddress ll)
  | .relative, [d] => some (.displacement (d.signExtend 16))
  | .indirect, [ll, hh] => some (.indirectPointer (wordOf ll hh))
  | _, _ => none

/-! ### The read port (R40, R44, R48, R49) -/

/-- The pointer word stored in zero page at `p` and `(p + 1) mod 256`, low byte first (R44). -/
def pointerWord (zpRead : Byte → Byte) (p : Byte) : Word := wordOf (zpRead p) (zpRead (p + 1))

/-- The zero-page reads a request issues, in order: two for IndirectX and IndirectY, none for any other mode (R48, R49). -/
def zpReads (mode : Mode) (operand : Word) (x : Byte) : List Byte :=
  match mode with
  | .indirectX => [loByte operand + x, loByte operand + x + 1]
  | .indirectY => [loByte operand, loByte operand + 1]
  | .accumulator | .implied | .immediate | .zeroPage | .zeroPageX | .zeroPageY | .absolute | .absoluteX | .absoluteY
  | .relative | .indirect => []

/-! ### The formulas, one per memory mode -/

/-- R122. -/
def eaZeroPage (operand : Word) : EffectiveAddress := ⟨(loByte operand).setWidth 16, false⟩

/-- R123 with X, R124 with Y: the index is added modulo 256. -/
def eaZeroPageIndexed (operand : Word) (index : Byte) : EffectiveAddress :=
  ⟨(loByte operand + index).setWidth 16, false⟩

/-- R125. -/
def eaAbsolute (operand : Word) : EffectiveAddress := ⟨operand, false⟩

/-- R126 with X, R127 with Y, and R129's last step: the index is added to a 16-bit base modulo 65536. -/
def eaIndexed (base : Word) (index : Byte) : EffectiveAddress :=
  ⟨base + index.setWidth 16, pageCrossed base (base + index.setWidth 16)⟩

/-- R128: the index is added to the pointer's address, before the indirection. -/
def eaIndirectX (operand : Word) (x : Byte) (zpRead : Byte → Byte) : EffectiveAddress :=
  ⟨pointerWord zpRead (loByte operand + x), false⟩

/-- R129: the index is added to the pointer, after the indirection. -/
def eaIndirectY (operand : Word) (y : Byte) (zpRead : Byte → Byte) : EffectiveAddress :=
  eaIndexed (pointerWord zpRead (loByte operand)) y

/-- R120: the Resolver. It dispatches on the mode alone; a mode that is not a memory mode has no effective address
(R130, R131). -/
def resolveAddress (mode : Mode) (operand : Word) (x y : Byte) (zpRead : Byte → Byte) :
    Except BlockError EffectiveAddress :=
  match mode with
  | .accumulator => .error (.noEffectiveAddress .accumulator)
  | .implied => .error (.noEffectiveAddress .implied)
  | .immediate => .error (.noEffectiveAddress .immediate)
  | .zeroPage => .ok (eaZeroPage operand)
  | .zeroPageX => .ok (eaZeroPageIndexed operand x)
  | .zeroPageY => .ok (eaZeroPageIndexed operand y)
  | .absolute => .ok (eaAbsolute operand)
  | .absoluteX => .ok (eaIndexed operand x)
  | .absoluteY => .ok (eaIndexed operand y)
  | .indirectX => .ok (eaIndirectX operand x zpRead)
  | .indirectY => .ok (eaIndirectY operand y zpRead)
  | .relative => .error (.noEffectiveAddress .relative)
  | .indirect => .error (.noEffectiveAddress .indirect)

/-! ### The adder (R132) -/

/-- R132, zero-page modes: the adder's low byte, its carry discarded. -/
def adderZeroPage (base : Byte) (index : Byte) : Byte := (adder8 base index).2

/-- R132, 16-bit modes: the high byte incremented by the carry, the adder's low byte, and the carry as the flag. -/
def adderIndexed (base : Word) (index : Byte) : EffectiveAddress :=
  let cs := adder8 (loByte base) index
  ⟨wordOf cs.2 (hiByte base + (BitVec.ofBool cs.1).setWidth 8), cs.1⟩

/-- The Resolver built from the one 8-bit adder and the high-byte incrementer of R132. -/
def resolveByAdder (mode : Mode) (operand : Word) (x y : Byte) (zpRead : Byte → Byte) :
    Except BlockError EffectiveAddress :=
  match mode with
  | .accumulator => .error (.noEffectiveAddress .accumulator)
  | .implied => .error (.noEffectiveAddress .implied)
  | .immediate => .error (.noEffectiveAddress .immediate)
  | .zeroPage => .ok ⟨wordOf (loByte operand) 0, false⟩
  | .zeroPageX => .ok ⟨wordOf (adderZeroPage (loByte operand) x) 0, false⟩
  | .zeroPageY => .ok ⟨wordOf (adderZeroPage (loByte operand) y) 0, false⟩
  | .absolute => .ok ⟨operand, false⟩
  | .absoluteX => .ok (adderIndexed operand x)
  | .absoluteY => .ok (adderIndexed operand y)
  | .indirectX =>
    let zp := adderZeroPage (loByte operand) x
    .ok ⟨wordOf (zpRead zp) (zpRead (adderZeroPage zp 1)), false⟩
  | .indirectY =>
    let p := loByte operand
    .ok (adderIndexed (wordOf (zpRead p) (zpRead (adderZeroPage p 1))) y)
  | .relative => .error (.noEffectiveAddress .relative)
  | .indirect => .error (.noEffectiveAddress .indirect)

end Sys2Proof.Machine
end

