-- ==== Sys2Proof/Machine/State.lean ====
section
/-! DEFINITION. The state of the machine: the block's table and parameters, the verdict of its construction, the inputs
its caller presents, and the outputs of the last request. The block has no other state (R30, R31, 10_state.md). -/

namespace Sys2Proof.Machine

/-- The outcome of the construction check (R84, R262): a block serves requests only if it passed (R235). -/
inductive Construction where
  /-- The table passed the check: the block serves requests. -/
  | passed
  /-- The table failed it, with the first offending entry in list order (D11): the block refuses every request. -/
  | failed (offender : Entry)
  deriving DecidableEq, Repr

/-- One request at a port of the block (R24 to R29). Modes and mnemonics come as the raw codes a port carries (R22, R23),
so that a code naming nothing can be asked. `resolveAddress` reads zero page through the caller's memory (R40). -/
inductive Request where
  /-- R24. -/
  | lookupOpcode (m : Text) (modeCode : BitVec 4)
  /-- R25. -/
  | lookupInstruction (b : Byte)
  /-- R26. -/
  | encode (m : Text) (modeCode : BitVec 4) (operandBytes : Bytes)
  /-- R27. -/
  | decode (bytes : Bytes) (cursor : Nat)
  /-- R28. -/
  | resolveAddress (modeCode : BitVec 4) (operand : Word) (x y : Byte)
  /-- R29. -/
  | mnemonicName (index : BitVec 6)
  deriving DecidableEq, Repr

/-- Everything the block does with one instruction (44_instructions.md, preamble): the bytes that spell it, what they
decode to, its name, how its operand bytes are read, and what the Resolver answers for its mode. -/
structure InstructionReport where
  /-- The Encoder's output (R100). -/
  bytes : Bytes
  /-- The Decoder's output (R150). -/
  decoded : Decoded
  /-- The name output of the multiplexer (R29). -/
  name : Byte × Byte × Byte
  /-- How the operand bytes are read (R63). -/
  reading : Option OperandReading
  /-- The operand as the Word passed to the Resolver (R45), where there are operand bytes. -/
  operand : Option Word
  /-- The Resolver's answer (R120): an address with its page-cross flag, or `noEffectiveAddress`. -/
  address : Except BlockError EffectiveAddress
  /-- The zero-page reads the Resolver issued, in order (R48, R49). -/
  reads : List Byte
  deriving DecidableEq, Repr

/-- The outputs of one request: the result of the port asked, or the error it raised and no other output (R231). -/
inductive Response where
  /-- `lookupOpcode`'s result (R81). -/
  | opcode (b : Byte)
  /-- `lookupInstruction`'s result (R82). -/
  | entry (m : Mnemonic) (mode : Mode)
  /-- `encode`'s result (R100). -/
  | encoded (bytes : Bytes)
  /-- `decode`'s result (R150). -/
  | decoded (d : Decoded)
  /-- `resolveAddress`'s result (R120), with the zero-page reads issued (R48). -/
  | address (a : EffectiveAddress) (reads : List Byte)
  /-- `mnemonicName`'s result (R87). -/
  | name (n : Byte × Byte × Byte)
  /-- One instruction, taken through the Encoder, the Decoder and the Resolver. -/
  | instruction (r : InstructionReport)
  /-- The error the request raised (R230). -/
  | error (e : BlockError)
  deriving DecidableEq, Repr

/-- What stops the machine. -/
inductive Fault where
  /-- Raised by `construct` (table construction), never by a step: the table holds a pair or an opcode byte twice, a
  fatal error (R84, R234). SAFE: nothing runs on such a table. -/
  | duplicateTableEntry (e : Entry)
  deriving DecidableEq, Repr

/-- A request that has no meaning: no result and no error code. -/
inductive Refusal where
  /-- Raised by `exec` alone, for an instruction without a meaning; none is left. SAFE. -/
  | notModelled (mnemonic : String)
  /-- Raised by every request to a block whose construction failed (R235, R236, D17). SAFE. -/
  | constructionFailed
  /-- Raised by a port request whose 4-bit mode code names no mode (R22, D16). SAFE. -/
  | unnamedModeCode (code : BitVec 4)
  /-- Raised by a `mnemonicName` request whose 6-bit index names no mnemonic (R23, R87, D16). SAFE. -/
  | unnamedMnemonicIndex (index : BitVec 6)
  deriving DecidableEq, Repr

/-- The block (the first three fields), the inputs its caller presents (the next six) and the outputs of the last
request (the last). The spec gives the block no register, flag, mode or program counter (R20, R21, R31, R32). -/
structure State where
  /-- Parameter OPCODE_ROM (R13): the entries the table is built from. -/
  opcodeRom : List Entry
  /-- Parameter EXT_MODES (R12). -/
  extModes : Bool
  /-- Whether the construction check passed (R84, R262). -/
  construction : Construction
  /-- The caller's byte stream (R27, R41). -/
  stream : Bytes
  /-- The caller's position in the stream (R20). -/
  cursor : Nat
  /-- The caller's X (R21, R28). -/
  x : Byte
  /-- The caller's Y (R21, R28). -/
  y : Byte
  /-- The caller's memory (R40): cells in canonical form (`memWf`), an unlisted address reading 0x00. -/
  mem : List Host.Cell
  /-- Port requests the caller presents, the first to be served first. The model's own field (log entry 6). -/
  pending : List Request
  /-- The outputs of the last request, for a reader of the state: nothing reads it (R260; log entry 7). -/
  response : Option Response
  deriving DecidableEq, Repr

/-- The state from power-on (R34, R260): the table of R66, EXT_MODES at its default, the check passed (R84). The spec
gives the caller's inputs no value: empty or zero, DESIGN CHOICE (log entries 3 to 7). -/
def State.reset : State where
  opcodeRom := opcodeTable
  extModes := Config.extModesDefault
  construction := .passed
  stream := []
  cursor := 0
  x := 0
  y := 0
  mem := []
  pending := []
  response := none

end Sys2Proof.Machine
end

