-- ==== Sys2Proof/Machine/Ops.lean ====
section
/-! DEFINITION. The named operations over the state: the caller's memory, the construction of the table, answering a
request, an instruction taken through the block's units, the ports, and the fetch of a step. -/

namespace Sys2Proof.Machine

/-! ### The caller's memory (R40, R41)

The caller's 16-bit address space, as (address, byte) cells. The block reads zero page only and never writes; `memWrite`
is the caller's. -/

/-- What an unlisted address reads as. DESIGN CHOICE, unsafe: log entry 5. -/
def memDefault : Byte := 0x00

/-- The byte of `m` at a cell key. -/
def cellRead : List Host.Cell → Nat → Byte
  | [], _ => memDefault
  | (k, v) :: m, a => if k = a then v else cellRead m a

/-- The cells with the byte at key `a` made `v`, keeping them rising and free of default bytes. -/
def cellWrite : List Host.Cell → Nat → Byte → List Host.Cell
  | [], a, v => if v = memDefault then [] else [(a, v)]
  | (k, w) :: m, a, v =>
    if k < a then (k, w) :: cellWrite m a v
    else
      let rest := if k = a then m else (k, w) :: m
      if v = memDefault then rest else (a, v) :: rest

/-- The byte the caller's memory holds at a 16-bit address. -/
def memRead (m : List Host.Cell) (a : Word) : Byte := cellRead m a.toNat

/-- The caller stores a byte at a 16-bit address. -/
def memWrite (m : List Host.Cell) (a : Word) (v : Byte) : List Host.Cell := cellWrite m a.toNat v

/-- The cells from key `lo` on are in canonical form: strictly rising, inside the 16-bit address space, none holding the
default byte. -/
def cellsWf : Nat → List Host.Cell → Bool
  | _, [] => true
  | lo, (k, v) :: m => decide (lo ≤ k) && decide (k < 65536) && (v != memDefault) && cellsWf (k + 1) m

/-- The memory is in canonical form. -/
def memWf (m : List Host.Cell) : Bool := cellsWf 0 m

/-- R40, the read port `ZpRead`: the byte of the caller's memory at `zext_16(a)`. -/
def State.zpRead (s : State) (a : Byte) : Byte := memRead s.mem (a.setWidth 16)

/-! ### The Instruction Table (R30, R84) -/

/-- R30: the ROM, the entries of OPCODE_ROM that exist under EXT_MODES. -/
def State.rom (s : State) : List Entry := tableFor s.extModes s.opcodeRom

/-- The loop of R84: `none` if every entry's pair and opcode byte are new, else the first offending entry. -/
def firstDuplicate (pairs : List (Mnemonic × Mode)) (bytes : List Byte) : List Entry → Option Entry
  | [] => none
  | e :: L =>
    if (e.mnemonic, e.mode) ∈ pairs ∨ e.opcode ∈ bytes then some e
    else firstDuplicate ((e.mnemonic, e.mode) :: pairs) (e.opcode :: bytes) L

/-- R84: build the table from a literal entry list. -/
def build (L : List Entry) : Except BlockError (List Entry) :=
  match firstDuplicate [] [] L with
  | some e => .error (.duplicateTableEntry e)
  | none => .ok L

/-- The construction verdict of a parameter OPCODE_ROM (R13, R84, R262). -/
def verdictOf (L : List Entry) : Construction :=
  match firstDuplicate [] [] L with
  | some e => .failed e
  | none => .passed

/-- The block at power-on with these parameters (R260, R262): OPCODE_ROM checked once, whole, before any request
(R13, R84; log entry 17). -/
def powerOn (ext : Bool) (L : List Entry) : State :=
  { State.reset with opcodeRom := L, extModes := ext, construction := verdictOf L }

/-- Table construction (R13, R84, R234): the powered-on block, or the fatal error (log entry 9). -/
def construct (ext : Bool) (L : List Entry) : Host.Outcome State Fault Refusal :=
  match firstDuplicate [] [] L with
  | some e => .fault (.duplicateTableEntry e)
  | none => .next (powerOn ext L)

/-! ### Answering (R231, R20) -/

/-- The state with the outputs of the request just served. -/
def State.answer (s : State) (r : Response) : State := { s with response := some r }

/-- R20: the caller's next cursor. -/
def State.advance (s : State) (n : Nat) : State := { s with cursor := s.cursor + n }

/-- The state with its first pending request taken off. -/
def State.popRequest (s : State) : State := { s with pending := s.pending.tail }

/-! ### One instruction through the block (44_instructions.md, preamble) -/

/-- What the block says of encoded and decoded bytes: name (R87), operand (R63, R45), address (R120), reads (R48). With
no operand byte the Resolver's operand input is 0, which no such mode looks at. -/
def describe (bytes : Bytes) (d : Decoded) (x y : Byte) (zpRead : Byte → Byte) : InstructionReport where
  bytes := bytes
  decoded := d
  name := mnemonicName d.mnemonic
  reading := operandReading d.mode d.operands
  operand := operandWord d.operands
  address := resolveAddress d.mode ((operandWord d.operands).getD 0) x y zpRead
  reads := zpReads d.mode ((operandWord d.operands).getD 0) x

/-- An instruction, given as the block receives one (R72), taken through the Encoder (R100), the Decoder (R150) and the
Resolver (R120). -/
def report (rom : List Entry) (x y : Byte) (zpRead : Byte → Byte) (m : Mnemonic) (mode : Mode) (operandBytes : Bytes) :
    Except BlockError InstructionReport :=
  match encode rom m.name mode operandBytes with
  | .error e => .error e
  | .ok bytes =>
    match decode rom bytes 0 with
    | .error e => .error e
    | .ok d => .ok (describe bytes d x y zpRead)

/-- The meaning shared by all instructions: the report of the instruction as the answer, the caller's cursor moved past
its bytes (R20); an error is the answer alone (R231); a block whose construction failed refuses (R236). -/
def serve (m : Mnemonic) (mode : Mode) (operandBytes : Bytes) (s : State) : Host.Outcome State Fault Refusal :=
  match s.construction with
  | .failed _ => .refused .constructionFailed
  | .passed =>
    match report s.rom s.x s.y s.zpRead m mode operandBytes with
    | .error e => .next (s.answer (.error e))
    | .ok r => .next ((s.advance r.decoded.consumed).answer (.instruction r))

/-! ### The ports (R24 to R29) -/

/-- The response that a unit's result or error is. -/
def Response.ofResult {α : Type} (f : α → Response) : Except BlockError α → Response
  | .ok a => f a
  | .error e => .error e

/-- The answer of a port to a request, a function of the request, the table and the caller's memory alone (R154, R231);
a raw code that names nothing is refused (D16). -/
def answerPort (ext : Bool) (rom : List Entry) (zpRead : Byte → Byte) : Request → Except Refusal Response
  | .lookupOpcode m c =>
    match Mode.ofCode ext c with
    | none => .error (.unnamedModeCode c)
    | some mode => .ok (.ofResult .opcode (lookupOpcode rom m mode))
  | .lookupInstruction b => .ok (.ofResult (fun e => .entry e.1 e.2) (lookupInstruction rom b))
  | .encode m c operandBytes =>
    match Mode.ofCode ext c with
    | none => .error (.unnamedModeCode c)
    | some mode => .ok (.ofResult .encoded (encode rom m mode operandBytes))
  | .decode bytes cursor => .ok (.ofResult .decoded (decode rom bytes cursor))
  | .resolveAddress c operand x y =>
    match Mode.ofCode ext c with
    | none => .error (.unnamedModeCode c)
    | some mode =>
      .ok (.ofResult (fun a => .address a (zpReads mode operand x)) (resolveAddress mode operand x y zpRead))
  | .mnemonicName i =>
    match Mnemonic.ofIndex i with
    | none => .error (.unnamedMnemonicIndex i)
    | some m => .ok (.name (mnemonicName m))

/-- Serve one port request: its answer, or a refusal. -/
def servePort (r : Request) (s : State) : Host.Outcome State Fault Refusal :=
  match s.construction with
  | .failed _ => .refused .constructionFailed
  | .passed =>
    match answerPort s.extModes s.rom s.zpRead r with
    | .ok a => .next (s.answer a)
    | .error e => .refused e

/-! ### The fetch of a walk step (95_test_vectors.md, section 6) -/

/-- Decode at the caller's cursor: the instruction to run, or the step's whole outcome where there is none. A decoding
error is the answer (R150); a pair that a table other than R66's holds and the opcode map does not is served like any
other (R13; log entry 11). -/
def fetch (s : State) : Except (Host.Outcome State Fault Refusal) Instr :=
  match s.construction with
  | .failed _ => .error (.refused .constructionFailed)
  | .passed =>
    match decode s.rom s.stream s.cursor with
    | .error e => .error (.next (s.answer (.error e)))
    | .ok d =>
      match Instr.ofTriple d.mnemonic d.mode d.operands with
      | some i => .ok i
      | none => .error (serve d.mnemonic d.mode d.operands s)

/-! ### Placing an instruction at the cursor -/

/-- The stream with `bytes` laid at index `cursor`, the rest unchanged; a stream that ends before `cursor` is filled up
with 0x00. -/
def placeBytes (stream : Bytes) (cursor : Nat) (bytes : Bytes) : Bytes :=
  stream.take cursor ++ List.replicate (cursor - stream.length) 0x00 ++ bytes ++ stream.drop (cursor + bytes.length)

/-- The state with `bytes` laid at the cursor, no port request before them, and EXT_MODES on where the block with it,
and only that one, has the opcode byte (log entry 2). -/
def State.placeInstruction (s : State) (bytes : Bytes) : State :=
  { s with
    stream := placeBytes s.stream s.cursor bytes
    pending := []
    extModes := s.extModes ||
      (match bytes with
       | [] => false
       | b :: _ => !s.rom.any (fun e => e.opcode == b) && s.opcodeRom.any (fun e => e.opcode == b)) }

end Sys2Proof.Machine
end

