-- ==== Sys2Proof/Machine/Arithmetic.lean ====
section
/-! DEFINITION. The meanings of the addition and subtraction: ADC, SBC. A meaning is what the block does with the instruction
(44_instructions.md, preamble; log entry 1): what the CPU computes is out of scope (R6, 00_scope.md). -/

namespace Sys2Proof.Machine

/-- ADC Immediate (R160). -/
def execAdcImm (n : Byte) (s : State) : Host.Outcome State Fault Refusal :=
  serve .adc .immediate [n] s

/-- ADC ZeroPage (R160). -/
def execAdcZp (n : Byte) (s : State) : Host.Outcome State Fault Refusal :=
  serve .adc .zeroPage [n] s

/-- ADC ZeroPageX (R160). -/
def execAdcZpx (n : Byte) (s : State) : Host.Outcome State Fault Refusal :=
  serve .adc .zeroPageX [n] s

/-- ADC Absolute (R160). -/
def execAdcAbs (lo hi : Byte) (s : State) : Host.Outcome State Fault Refusal :=
  serve .adc .absolute [lo, hi] s

/-- ADC AbsoluteX (R160). -/
def execAdcAbx (lo hi : Byte) (s : State) : Host.Outcome State Fault Refusal :=
  serve .adc .absoluteX [lo, hi] s

/-- ADC AbsoluteY (R160). -/
def execAdcAby (lo hi : Byte) (s : State) : Host.Outcome State Fault Refusal :=
  serve .adc .absoluteY [lo, hi] s

/-- ADC IndirectX (R160). -/
def execAdcIzx (n : Byte) (s : State) : Host.Outcome State Fault Refusal :=
  serve .adc .indirectX [n] s

/-- ADC IndirectY (R160). -/
def execAdcIzy (n : Byte) (s : State) : Host.Outcome State Fault Refusal :=
  serve .adc .indirectY [n] s

/-- SBC Immediate (R203). -/
def execSbcImm (n : Byte) (s : State) : Host.Outcome State Fault Refusal :=
  serve .sbc .immediate [n] s

/-- SBC ZeroPage (R203). -/
def execSbcZp (n : Byte) (s : State) : Host.Outcome State Fault Refusal :=
  serve .sbc .zeroPage [n] s

/-- SBC ZeroPageX (R203). -/
def execSbcZpx (n : Byte) (s : State) : Host.Outcome State Fault Refusal :=
  serve .sbc .zeroPageX [n] s

/-- SBC Absolute (R203). -/
def execSbcAbs (lo hi : Byte) (s : State) : Host.Outcome State Fault Refusal :=
  serve .sbc .absolute [lo, hi] s

/-- SBC AbsoluteX (R203). -/
def execSbcAbx (lo hi : Byte) (s : State) : Host.Outcome State Fault Refusal :=
  serve .sbc .absoluteX [lo, hi] s

/-- SBC AbsoluteY (R203). -/
def execSbcAby (lo hi : Byte) (s : State) : Host.Outcome State Fault Refusal :=
  serve .sbc .absoluteY [lo, hi] s

/-- SBC IndirectX (R203). -/
def execSbcIzx (n : Byte) (s : State) : Host.Outcome State Fault Refusal :=
  serve .sbc .indirectX [n] s

/-- SBC IndirectY (R203). -/
def execSbcIzy (n : Byte) (s : State) : Host.Outcome State Fault Refusal :=
  serve .sbc .indirectY [n] s

end Sys2Proof.Machine
end

