-- ==== Sys2Proof/Machine/Branch.lean ====
section
/-! DEFINITION. The meanings of the branches, which only a block with EXT_MODES has: BCC, BCS, BEQ, BMI, BNE, BPL, BVC, BVS. A meaning is what the block does with the instruction
(44_instructions.md, preamble; log entry 1): what the CPU computes is out of scope (R6, 00_scope.md). -/

namespace Sys2Proof.Machine

/-- BCC Relative (R163), only with EXT_MODES. -/
def execBccRel (n : Byte) (s : State) : Host.Outcome State Fault Refusal :=
  serve .bcc .relative [n] s

/-- BCS Relative (R164), only with EXT_MODES. -/
def execBcsRel (n : Byte) (s : State) : Host.Outcome State Fault Refusal :=
  serve .bcs .relative [n] s

/-- BEQ Relative (R165), only with EXT_MODES. -/
def execBeqRel (n : Byte) (s : State) : Host.Outcome State Fault Refusal :=
  serve .beq .relative [n] s

/-- BMI Relative (R167), only with EXT_MODES. -/
def execBmiRel (n : Byte) (s : State) : Host.Outcome State Fault Refusal :=
  serve .bmi .relative [n] s

/-- BNE Relative (R168), only with EXT_MODES. -/
def execBneRel (n : Byte) (s : State) : Host.Outcome State Fault Refusal :=
  serve .bne .relative [n] s

/-- BPL Relative (R169), only with EXT_MODES. -/
def execBplRel (n : Byte) (s : State) : Host.Outcome State Fault Refusal :=
  serve .bpl .relative [n] s

/-- BVC Relative (R171), only with EXT_MODES. -/
def execBvcRel (n : Byte) (s : State) : Host.Outcome State Fault Refusal :=
  serve .bvc .relative [n] s

/-- BVS Relative (R172), only with EXT_MODES. -/
def execBvsRel (n : Byte) (s : State) : Host.Outcome State Fault Refusal :=
  serve .bvs .relative [n] s

end Sys2Proof.Machine
end

