-- ==== Sys2Proof/Machine/Compare.lean ====
section
/-! DEFINITION. The meanings of the comparisons: CMP, CPX, CPY. A meaning is what the block does with the instruction
(44_instructions.md, preamble; log entry 1): what the CPU computes is out of scope (R6, 00_scope.md). -/

namespace Sys2Proof.Machine

/-- CMP Immediate (R177). -/
def execCmpImm (n : Byte) (s : State) : Host.Outcome State Fault Refusal :=
  serve .cmp .immediate [n] s

/-- CMP ZeroPage (R177). -/
def execCmpZp (n : Byte) (s : State) : Host.Outcome State Fault Refusal :=
  serve .cmp .zeroPage [n] s

/-- CMP ZeroPageX (R177). -/
def execCmpZpx (n : Byte) (s : State) : Host.Outcome State Fault Refusal :=
  serve .cmp .zeroPageX [n] s

/-- CMP Absolute (R177). -/
def execCmpAbs (lo hi : Byte) (s : State) : Host.Outcome State Fault Refusal :=
  serve .cmp .absolute [lo, hi] s

/-- CMP AbsoluteX (R177). -/
def execCmpAbx (lo hi : Byte) (s : State) : Host.Outcome State Fault Refusal :=
  serve .cmp .absoluteX [lo, hi] s

/-- CMP AbsoluteY (R177). -/
def execCmpAby (lo hi : Byte) (s : State) : Host.Outcome State Fault Refusal :=
  serve .cmp .absoluteY [lo, hi] s

/-- CMP IndirectX (R177). -/
def execCmpIzx (n : Byte) (s : State) : Host.Outcome State Fault Refusal :=
  serve .cmp .indirectX [n] s

/-- CMP IndirectY (R177). -/
def execCmpIzy (n : Byte) (s : State) : Host.Outcome State Fault Refusal :=
  serve .cmp .indirectY [n] s

/-- CPX Immediate (R178). -/
def execCpxImm (n : Byte) (s : State) : Host.Outcome State Fault Refusal :=
  serve .cpx .immediate [n] s

/-- CPX ZeroPage (R178). -/
def execCpxZp (n : Byte) (s : State) : Host.Outcome State Fault Refusal :=
  serve .cpx .zeroPage [n] s

/-- CPX Absolute (R178). -/
def execCpxAbs (lo hi : Byte) (s : State) : Host.Outcome State Fault Refusal :=
  serve .cpx .absolute [lo, hi] s

/-- CPY Immediate (R179). -/
def execCpyImm (n : Byte) (s : State) : Host.Outcome State Fault Refusal :=
  serve .cpy .immediate [n] s

/-- CPY ZeroPage (R179). -/
def execCpyZp (n : Byte) (s : State) : Host.Outcome State Fault Refusal :=
  serve .cpy .zeroPage [n] s

/-- CPY Absolute (R179). -/
def execCpyAbs (lo hi : Byte) (s : State) : Host.Outcome State Fault Refusal :=
  serve .cpy .absolute [lo, hi] s

end Sys2Proof.Machine
end

