-- ==== Sys2Proof/Machine/Control.lean ====
section
/-! DEFINITION. The meanings of the jumps, returns and the rest: BRK, JMP, JSR, NOP, RTI, RTS. A meaning is what the block does with the instruction
(44_instructions.md, preamble; log entry 1): what the CPU computes is out of scope (R6, 00_scope.md). -/

namespace Sys2Proof.Machine

/-- BRK Implied (R170). -/
def execBrkImp (s : State) : Host.Outcome State Fault Refusal :=
  serve .brk .implied [] s

/-- JMP Absolute (R187). -/
def execJmpAbs (lo hi : Byte) (s : State) : Host.Outcome State Fault Refusal :=
  serve .jmp .absolute [lo, hi] s

/-- JMP Indirect (R187), only with EXT_MODES. -/
def execJmpInd (lo hi : Byte) (s : State) : Host.Outcome State Fault Refusal :=
  serve .jmp .indirect [lo, hi] s

/-- JSR Absolute (R188). -/
def execJsrAbs (lo hi : Byte) (s : State) : Host.Outcome State Fault Refusal :=
  serve .jsr .absolute [lo, hi] s

/-- NOP Implied (R193). -/
def execNopImp (s : State) : Host.Outcome State Fault Refusal :=
  serve .nop .implied [] s

/-- RTI Implied (R201). -/
def execRtiImp (s : State) : Host.Outcome State Fault Refusal :=
  serve .rti .implied [] s

/-- RTS Implied (R202). -/
def execRtsImp (s : State) : Host.Outcome State Fault Refusal :=
  serve .rts .implied [] s

end Sys2Proof.Machine
end

