-- ==== Sys2Proof/Machine/Count.lean ====
section
/-! DEFINITION. The meanings of the increments and decrements: DEC, DEX, DEY, INC, INX, INY. A meaning is what the block does with the instruction
(44_instructions.md, preamble; log entry 1): what the CPU computes is out of scope (R6, 00_scope.md). -/

namespace Sys2Proof.Machine

/-- DEC ZeroPage (R180). -/
def execDecZp (n : Byte) (s : State) : Host.Outcome State Fault Refusal :=
  serve .dec .zeroPage [n] s

/-- DEC ZeroPageX (R180). -/
def execDecZpx (n : Byte) (s : State) : Host.Outcome State Fault Refusal :=
  serve .dec .zeroPageX [n] s

/-- DEC Absolute (R180). -/
def execDecAbs (lo hi : Byte) (s : State) : Host.Outcome State Fault Refusal :=
  serve .dec .absolute [lo, hi] s

/-- DEC AbsoluteX (R180). -/
def execDecAbx (lo hi : Byte) (s : State) : Host.Outcome State Fault Refusal :=
  serve .dec .absoluteX [lo, hi] s

/-- DEX Implied (R181). -/
def execDexImp (s : State) : Host.Outcome State Fault Refusal :=
  serve .dex .implied [] s

/-- DEY Implied (R182). -/
def execDeyImp (s : State) : Host.Outcome State Fault Refusal :=
  serve .dey .implied [] s

/-- INC ZeroPage (R184). -/
def execIncZp (n : Byte) (s : State) : Host.Outcome State Fault Refusal :=
  serve .inc .zeroPage [n] s

/-- INC ZeroPageX (R184). -/
def execIncZpx (n : Byte) (s : State) : Host.Outcome State Fault Refusal :=
  serve .inc .zeroPageX [n] s

/-- INC Absolute (R184). -/
def execIncAbs (lo hi : Byte) (s : State) : Host.Outcome State Fault Refusal :=
  serve .inc .absolute [lo, hi] s

/-- INC AbsoluteX (R184). -/
def execIncAbx (lo hi : Byte) (s : State) : Host.Outcome State Fault Refusal :=
  serve .inc .absoluteX [lo, hi] s

/-- INX Implied (R185). -/
def execInxImp (s : State) : Host.Outcome State Fault Refusal :=
  serve .inx .implied [] s

/-- INY Implied (R186). -/
def execInyImp (s : State) : Host.Outcome State Fault Refusal :=
  serve .iny .implied [] s

end Sys2Proof.Machine
end

