-- ==== Sys2Proof/Machine/Load.lean ====
section
/-! DEFINITION. The meanings of the loads: LDA, LDX, LDY. A meaning is what the block does with the instruction
(44_instructions.md, preamble; log entry 1): what the CPU computes is out of scope (R6, 00_scope.md). -/

namespace Sys2Proof.Machine

/-- LDA Immediate (R189). -/
def execLdaImm (n : Byte) (s : State) : Host.Outcome State Fault Refusal :=
  serve .lda .immediate [n] s

/-- LDA ZeroPage (R189). -/
def execLdaZp (n : Byte) (s : State) : Host.Outcome State Fault Refusal :=
  serve .lda .zeroPage [n] s

/-- LDA ZeroPageX (R189). -/
def execLdaZpx (n : Byte) (s : State) : Host.Outcome State Fault Refusal :=
  serve .lda .zeroPageX [n] s

/-- LDA Absolute (R189). -/
def execLdaAbs (lo hi : Byte) (s : State) : Host.Outcome State Fault Refusal :=
  serve .lda .absolute [lo, hi] s

/-- LDA AbsoluteX (R189). -/
def execLdaAbx (lo hi : Byte) (s : State) : Host.Outcome State Fault Refusal :=
  serve .lda .absoluteX [lo, hi] s

/-- LDA AbsoluteY (R189). -/
def execLdaAby (lo hi : Byte) (s : State) : Host.Outcome State Fault Refusal :=
  serve .lda .absoluteY [lo, hi] s

/-- LDA IndirectX (R189). -/
def execLdaIzx (n : Byte) (s : State) : Host.Outcome State Fault Refusal :=
  serve .lda .indirectX [n] s

/-- LDA IndirectY (R189). -/
def execLdaIzy (n : Byte) (s : State) : Host.Outcome State Fault Refusal :=
  serve .lda .indirectY [n] s

/-- LDX Immediate (R190). -/
def execLdxImm (n : Byte) (s : State) : Host.Outcome State Fault Refusal :=
  serve .ldx .immediate [n] s

/-- LDX ZeroPage (R190). -/
def execLdxZp (n : Byte) (s : State) : Host.Outcome State Fault Refusal :=
  serve .ldx .zeroPage [n] s

/-- LDX ZeroPageY (R190). -/
def execLdxZpy (n : Byte) (s : State) : Host.Outcome State Fault Refusal :=
  serve .ldx .zeroPageY [n] s

/-- LDX Absolute (R190). -/
def execLdxAbs (lo hi : Byte) (s : State) : Host.Outcome State Fault Refusal :=
  serve .ldx .absolute [lo, hi] s

/-- LDX AbsoluteY (R190). -/
def execLdxAby (lo hi : Byte) (s : State) : Host.Outcome State Fault Refusal :=
  serve .ldx .absoluteY [lo, hi] s

/-- LDY Immediate (R191). -/
def execLdyImm (n : Byte) (s : State) : Host.Outcome State Fault Refusal :=
  serve .ldy .immediate [n] s

/-- LDY ZeroPage (R191). -/
def execLdyZp (n : Byte) (s : State) : Host.Outcome State Fault Refusal :=
  serve .ldy .zeroPage [n] s

/-- LDY ZeroPageX (R191). -/
def execLdyZpx (n : Byte) (s : State) : Host.Outcome State Fault Refusal :=
  serve .ldy .zeroPageX [n] s

/-- LDY Absolute (R191). -/
def execLdyAbs (lo hi : Byte) (s : State) : Host.Outcome State Fault Refusal :=
  serve .ldy .absolute [lo, hi] s

/-- LDY AbsoluteX (R191). -/
def execLdyAbx (lo hi : Byte) (s : State) : Host.Outcome State Fault Refusal :=
  serve .ldy .absoluteX [lo, hi] s

end Sys2Proof.Machine
end

