-- ==== Sys2Proof/Machine/Logic.lean ====
section
/-! DEFINITION. The meanings of the logic: AND, BIT, EOR, ORA. A meaning is what the block does with the instruction
(44_instructions.md, preamble; log entry 1): what the CPU computes is out of scope (R6, 00_scope.md). -/

namespace Sys2Proof.Machine

/-- AND Immediate (R161). -/
def execAndImm (n : Byte) (s : State) : Host.Outcome State Fault Refusal :=
  serve .and .immediate [n] s

/-- AND ZeroPage (R161). -/
def execAndZp (n : Byte) (s : State) : Host.Outcome State Fault Refusal :=
  serve .and .zeroPage [n] s

/-- AND ZeroPageX (R161). -/
def execAndZpx (n : Byte) (s : State) : Host.Outcome State Fault Refusal :=
  serve .and .zeroPageX [n] s

/-- AND Absolute (R161). -/
def execAndAbs (lo hi : Byte) (s : State) : Host.Outcome State Fault Refusal :=
  serve .and .absolute [lo, hi] s

/-- AND AbsoluteX (R161). -/
def execAndAbx (lo hi : Byte) (s : State) : Host.Outcome State Fault Refusal :=
  serve .and .absoluteX [lo, hi] s

/-- AND AbsoluteY (R161). -/
def execAndAby (lo hi : Byte) (s : State) : Host.Outcome State Fault Refusal :=
  serve .and .absoluteY [lo, hi] s

/-- AND IndirectX (R161). -/
def execAndIzx (n : Byte) (s : State) : Host.Outcome State Fault Refusal :=
  serve .and .indirectX [n] s

/-- AND IndirectY (R161). -/
def execAndIzy (n : Byte) (s : State) : Host.Outcome State Fault Refusal :=
  serve .and .indirectY [n] s

/-- BIT ZeroPage (R166). -/
def execBitZp (n : Byte) (s : State) : Host.Outcome State Fault Refusal :=
  serve .bit .zeroPage [n] s

/-- BIT Absolute (R166). -/
def execBitAbs (lo hi : Byte) (s : State) : Host.Outcome State Fault Refusal :=
  serve .bit .absolute [lo, hi] s

/-- EOR Immediate (R183). -/
def execEorImm (n : Byte) (s : State) : Host.Outcome State Fault Refusal :=
  serve .eor .immediate [n] s

/-- EOR ZeroPage (R183). -/
def execEorZp (n : Byte) (s : State) : Host.Outcome State Fault Refusal :=
  serve .eor .zeroPage [n] s

/-- EOR ZeroPageX (R183). -/
def execEorZpx (n : Byte) (s : State) : Host.Outcome State Fault Refusal :=
  serve .eor .zeroPageX [n] s

/-- EOR Absolute (R183). -/
def execEorAbs (lo hi : Byte) (s : State) : Host.Outcome State Fault Refusal :=
  serve .eor .absolute [lo, hi] s

/-- EOR AbsoluteX (R183). -/
def execEorAbx (lo hi : Byte) (s : State) : Host.Outcome State Fault Refusal :=
  serve .eor .absoluteX [lo, hi] s

/-- EOR AbsoluteY (R183). -/
def execEorAby (lo hi : Byte) (s : State) : Host.Outcome State Fault Refusal :=
  serve .eor .absoluteY [lo, hi] s

/-- EOR IndirectX (R183). -/
def execEorIzx (n : Byte) (s : State) : Host.Outcome State Fault Refusal :=
  serve .eor .indirectX [n] s

/-- EOR IndirectY (R183). -/
def execEorIzy (n : Byte) (s : State) : Host.Outcome State Fault Refusal :=
  serve .eor .indirectY [n] s

/-- ORA Immediate (R194). -/
def execOraImm (n : Byte) (s : State) : Host.Outcome State Fault Refusal :=
  serve .ora .immediate [n] s

/-- ORA ZeroPage (R194). -/
def execOraZp (n : Byte) (s : State) : Host.Outcome State Fault Refusal :=
  serve .ora .zeroPage [n] s

/-- ORA ZeroPageX (R194). -/
def execOraZpx (n : Byte) (s : State) : Host.Outcome State Fault Refusal :=
  serve .ora .zeroPageX [n] s

/-- ORA Absolute (R194). -/
def execOraAbs (lo hi : Byte) (s : State) : Host.Outcome State Fault Refusal :=
  serve .ora .absolute [lo, hi] s

/-- ORA AbsoluteX (R194). -/
def execOraAbx (lo hi : Byte) (s : State) : Host.Outcome State Fault Refusal :=
  serve .ora .absoluteX [lo, hi] s

/-- ORA AbsoluteY (R194). -/
def execOraAby (lo hi : Byte) (s : State) : Host.Outcome State Fault Refusal :=
  serve .ora .absoluteY [lo, hi] s

/-- ORA IndirectX (R194). -/
def execOraIzx (n : Byte) (s : State) : Host.Outcome State Fault Refusal :=
  serve .ora .indirectX [n] s

/-- ORA IndirectY (R194). -/
def execOraIzy (n : Byte) (s : State) : Host.Outcome State Fault Refusal :=
  serve .ora .indirectY [n] s

end Sys2Proof.Machine
end

