-- ==== Sys2Proof/Machine/Shift.lean ====
section
/-! DEFINITION. The meanings of the shifts and rotates: ASL, LSR, ROL, ROR. A meaning is what the block does with the instruction
(44_instructions.md, preamble; log entry 1): what the CPU computes is out of scope (R6, 00_scope.md). -/

namespace Sys2Proof.Machine

/-- ASL Accumulator (R162). -/
def execAslAcc (s : State) : Host.Outcome State Fault Refusal :=
  serve .asl .accumulator [] s

/-- ASL ZeroPage (R162). -/
def execAslZp (n : Byte) (s : State) : Host.Outcome State Fault Refusal :=
  serve .asl .zeroPage [n] s

/-- ASL ZeroPageX (R162). -/
def execAslZpx (n : Byte) (s : State) : Host.Outcome State Fault Refusal :=
  serve .asl .zeroPageX [n] s

/-- ASL Absolute (R162). -/
def execAslAbs (lo hi : Byte) (s : State) : Host.Outcome State Fault Refusal :=
  serve .asl .absolute [lo, hi] s

/-- ASL AbsoluteX (R162). -/
def execAslAbx (lo hi : Byte) (s : State) : Host.Outcome State Fault Refusal :=
  serve .asl .absoluteX [lo, hi] s

/-- LSR Accumulator (R192). -/
def execLsrAcc (s : State) : Host.Outcome State Fault Refusal :=
  serve .lsr .accumulator [] s

/-- LSR ZeroPage (R192). -/
def execLsrZp (n : Byte) (s : State) : Host.Outcome State Fault Refusal :=
  serve .lsr .zeroPage [n] s

/-- LSR ZeroPageX (R192). -/
def execLsrZpx (n : Byte) (s : State) : Host.Outcome State Fault Refusal :=
  serve .lsr .zeroPageX [n] s

/-- LSR Absolute (R192). -/
def execLsrAbs (lo hi : Byte) (s : State) : Host.Outcome State Fault Refusal :=
  serve .lsr .absolute [lo, hi] s

/-- LSR AbsoluteX (R192). -/
def execLsrAbx (lo hi : Byte) (s : State) : Host.Outcome State Fault Refusal :=
  serve .lsr .absoluteX [lo, hi] s

/-- ROL Accumulator (R199). -/
def execRolAcc (s : State) : Host.Outcome State Fault Refusal :=
  serve .rol .accumulator [] s

/-- ROL ZeroPage (R199). -/
def execRolZp (n : Byte) (s : State) : Host.Outcome State Fault Refusal :=
  serve .rol .zeroPage [n] s

/-- ROL ZeroPageX (R199). -/
def execRolZpx (n : Byte) (s : State) : Host.Outcome State Fault Refusal :=
  serve .rol .zeroPageX [n] s

/-- ROL Absolute (R199). -/
def execRolAbs (lo hi : Byte) (s : State) : Host.Outcome State Fault Refusal :=
  serve .rol .absolute [lo, hi] s

/-- ROL AbsoluteX (R199). -/
def execRolAbx (lo hi : Byte) (s : State) : Host.Outcome State Fault Refusal :=
  serve .rol .absoluteX [lo, hi] s

/-- ROR Accumulator (R200). -/
def execRorAcc (s : State) : Host.Outcome State Fault Refusal :=
  serve .ror .accumulator [] s

/-- ROR ZeroPage (R200). -/
def execRorZp (n : Byte) (s : State) : Host.Outcome State Fault Refusal :=
  serve .ror .zeroPage [n] s

/-- ROR ZeroPageX (R200). -/
def execRorZpx (n : Byte) (s : State) : Host.Outcome State Fault Refusal :=
  serve .ror .zeroPageX [n] s

/-- ROR Absolute (R200). -/
def execRorAbs (lo hi : Byte) (s : State) : Host.Outcome State Fault Refusal :=
  serve .ror .absolute [lo, hi] s

/-- ROR AbsoluteX (R200). -/
def execRorAbx (lo hi : Byte) (s : State) : Host.Outcome State Fault Refusal :=
  serve .ror .absoluteX [lo, hi] s

end Sys2Proof.Machine
end

