-- ==== Sys2Proof/Machine/Stack.lean ====
section
/-! DEFINITION. The meanings of the stack instructions: PHA, PHP, PLA, PLP. A meaning is what the block does with the instruction
(44_instructions.md, preamble; log entry 1): what the CPU computes is out of scope (R6, 00_scope.md). -/

namespace Sys2Proof.Machine

/-- PHA Implied (R195). -/
def execPhaImp (s : State) : Host.Outcome State Fault Refusal :=
  serve .pha .implied [] s

/-- PHP Implied (R196). -/
def execPhpImp (s : State) : Host.Outcome State Fault Refusal :=
  serve .php .implied [] s

/-- PLA Implied (R197). -/
def execPlaImp (s : State) : Host.Outcome State Fault Refusal :=
  serve .pla .implied [] s

/-- PLP Implied (R198). -/
def execPlpImp (s : State) : Host.Outcome State Fault Refusal :=
  serve .plp .implied [] s

end Sys2Proof.Machine
end

