-- ==== Sys2Proof/Machine/StatusFlag.lean ====
section
/-! DEFINITION. The meanings of the status-flag instructions: CLC, CLD, CLI, CLV, SEC, SED, SEI. A meaning is what the block does with the instruction
(44_instructions.md, preamble; log entry 1): what the CPU computes is out of scope (R6, 00_scope.md). -/

namespace Sys2Proof.Machine

/-- CLC Implied (R173). -/
def execClcImp (s : State) : Host.Outcome State Fault Refusal :=
  serve .clc .implied [] s

/-- CLD Implied (R174). -/
def execCldImp (s : State) : Host.Outcome State Fault Refusal :=
  serve .cld .implied [] s

/-- CLI Implied (R175). -/
def execCliImp (s : State) : Host.Outcome State Fault Refusal :=
  serve .cli .implied [] s

/-- CLV Implied (R176). -/
def execClvImp (s : State) : Host.Outcome State Fault Refusal :=
  serve .clv .implied [] s

/-- SEC Implied (R204). -/
def execSecImp (s : State) : Host.Outcome State Fault Refusal :=
  serve .sec .implied [] s

/-- SED Implied (R205). -/
def execSedImp (s : State) : Host.Outcome State Fault Refusal :=
  serve .sed .implied [] s

/-- SEI Implied (R206). -/
def execSeiImp (s : State) : Host.Outcome State Fault Refusal :=
  serve .sei .implied [] s

end Sys2Proof.Machine
end

