-- ==== Sys2Proof/Machine/Store.lean ====
section
/-! DEFINITION. The meanings of the stores: STA, STX, STY. A meaning is what the block does with the instruction
(44_instructions.md, preamble; log entry 1): what the CPU computes is out of scope (R6, 00_scope.md). -/

namespace Sys2Proof.Machine

/-- STA ZeroPage (R207). -/
def execStaZp (n : Byte) (s : State) : Host.Outcome State Fault Refusal :=
  serve .sta .zeroPage [n] s

/-- STA ZeroPageX (R207). -/
def execStaZpx (n : Byte) (s : State) : Host.Outcome State Fault Refusal :=
  serve .sta .zeroPageX [n] s

/-- STA Absolute (R207). -/
def execStaAbs (lo hi : Byte) (s : State) : Host.Outcome State Fault Refusal :=
  serve .sta .absolute [lo, hi] s

/-- STA AbsoluteX (R207). -/
def execStaAbx (lo hi : Byte) (s : State) : Host.Outcome State Fault Refusal :=
  serve .sta .absoluteX [lo, hi] s

/-- STA AbsoluteY (R207). -/
def execStaAby (lo hi : Byte) (s : State) : Host.Outcome State Fault Refusal :=
  serve .sta .absoluteY [lo, hi] s

/-- STA IndirectX (R207). -/
def execStaIzx (n : Byte) (s : State) : Host.Outcome State Fault Refusal :=
  serve .sta .indirectX [n] s

/-- STA IndirectY (R207). -/
def execStaIzy (n : Byte) (s : State) : Host.Outcome State Fault Refusal :=
  serve .sta .indirectY [n] s

/-- STX ZeroPage (R208). -/
def execStxZp (n : Byte) (s : State) : Host.Outcome State Fault Refusal :=
  serve .stx .zeroPage [n] s

/-- STX ZeroPageY (R208). -/
def execStxZpy (n : Byte) (s : State) : Host.Outcome State Fault Refusal :=
  serve .stx .zeroPageY [n] s

/-- STX Absolute (R208). -/
def execStxAbs (lo hi : Byte) (s : State) : Host.Outcome State Fault Refusal :=
  serve .stx .absolute [lo, hi] s

/-- STY ZeroPage (R209). -/
def execStyZp (n : Byte) (s : State) : Host.Outcome State Fault Refusal :=
  serve .sty .zeroPage [n] s

/-- STY ZeroPageX (R209). -/
def execStyZpx (n : Byte) (s : State) : Host.Outcome State Fault Refusal :=
  serve .sty .zeroPageX [n] s

/-- STY Absolute (R209). -/
def execStyAbs (lo hi : Byte) (s : State) : Host.Outcome State Fault Refusal :=
  serve .sty .absolute [lo, hi] s

end Sys2Proof.Machine
end

