-- ==== Sys2Proof/Machine/Transfer.lean ====
section
/-! DEFINITION. The meanings of the register transfers: TAX, TAY, TSX, TXA, TXS, TYA. A meaning is what the block does with the instruction
(44_instructions.md, preamble; log entry 1): what the CPU computes is out of scope (R6, 00_scope.md). -/

namespace Sys2Proof.Machine

/-- TAX Implied (R210). -/
def execTaxImp (s : State) : Host.Outcome State Fault Refusal :=
  serve .tax .implied [] s

/-- TAY Implied (R211). -/
def execTayImp (s : State) : Host.Outcome State Fault Refusal :=
  serve .tay .implied [] s

/-- TSX Implied (R212). -/
def execTsxImp (s : State) : Host.Outcome State Fault Refusal :=
  serve .tsx .implied [] s

/-- TXA Implied (R213). -/
def execTxaImp (s : State) : Host.Outcome State Fault Refusal :=
  serve .txa .implied [] s

/-- TXS Implied (R214). -/
def execTxsImp (s : State) : Host.Outcome State Fault Refusal :=
  serve .txs .implied [] s

/-- TYA Implied (R215). -/
def execTyaImp (s : State) : Host.Outcome State Fault Refusal :=
  serve .tya .implied [] s

end Sys2Proof.Machine
end

