-- ==== Sys2Proof/Machine/Dispatch.lean ====
section
/-! DEFINITION. What each instruction does: one arm per constructor of Instr, in the order of the mnemonics. -/

namespace Sys2Proof.Machine

/-- The effect of one instruction. -/
def exec (i : Instr) (s : State) : Host.Outcome State Fault Refusal :=
  match i with
  -- ADC, Add with Carry (R160)
  | .adcImm n => Sys2Proof.Machine.execAdcImm n s
  | .adcZp n => Sys2Proof.Machine.execAdcZp n s
  | .adcZpx n => Sys2Proof.Machine.execAdcZpx n s
  | .adcAbs lo hi => Sys2Proof.Machine.execAdcAbs lo hi s
  | .adcAbx lo hi => Sys2Proof.Machine.execAdcAbx lo hi s
  | .adcAby lo hi => Sys2Proof.Machine.execAdcAby lo hi s
  | .adcIzx n => Sys2Proof.Machine.execAdcIzx n s
  | .adcIzy n => Sys2Proof.Machine.execAdcIzy n s
  -- AND, logical AND (R161)
  | .andImm n => Sys2Proof.Machine.execAndImm n s
  | .andZp n => Sys2Proof.Machine.execAndZp n s
  | .andZpx n => Sys2Proof.Machine.execAndZpx n s
  | .andAbs lo hi => Sys2Proof.Machine.execAndAbs lo hi s
  | .andAbx lo hi => Sys2Proof.Machine.execAndAbx lo hi s
  | .andAby lo hi => Sys2Proof.Machine.execAndAby lo hi s
  | .andIzx n => Sys2Proof.Machine.execAndIzx n s
  | .andIzy n => Sys2Proof.Machine.execAndIzy n s
  -- ASL, Arithmetic Shift Left (R162)
  | .aslAcc => Sys2Proof.Machine.execAslAcc s
  | .aslZp n => Sys2Proof.Machine.execAslZp n s
  | .aslZpx n => Sys2Proof.Machine.execAslZpx n s
  | .aslAbs lo hi => Sys2Proof.Machine.execAslAbs lo hi s
  | .aslAbx lo hi => Sys2Proof.Machine.execAslAbx lo hi s
  -- BCC, Branch if Carry Clear (R163)
  | .bccRel n => Sys2Proof.Machine.execBccRel n s
  -- BCS, Branch if Carry Set (R164)
  | .bcsRel n => Sys2Proof.Machine.execBcsRel n s
  -- BEQ, Branch if Equal (R165)
  | .beqRel n => Sys2Proof.Machine.execBeqRel n s
  -- BIT, Bit Test (R166)
  | .bitZp n => Sys2Proof.Machine.execBitZp n s
  | .bitAbs lo hi => Sys2Proof.Machine.execBitAbs lo hi s
  -- BMI, Branch if Minus (R167)
  | .bmiRel n => Sys2Proof.Machine.execBmiRel n s
  -- BNE, Branch if Not Equal (R168)
  | .bneRel n => Sys2Proof.Machine.execBneRel n s
  -- BPL, Branch if Plus (R169)
  | .bplRel n => Sys2Proof.Machine.execBplRel n s
  -- BRK, Break (R170)
  | .brkImp => Sys2Proof.Machine.execBrkImp s
  -- BVC, Branch if Overflow Clear (R171)
  | .bvcRel n => Sys2Proof.Machine.execBvcRel n s
  -- BVS, Branch if Overflow Set (R172)
  | .bvsRel n => Sys2Proof.Machine.execBvsRel n s
  -- CLC, Clear Carry (R173)
  | .clcImp => Sys2Proof.Machine.execClcImp s
  -- CLD, Clear Decimal (R174)
  | .cldImp => Sys2Proof.Machine.execCldImp s
  -- CLI, Clear Interrupt Disable (R175)
  | .cliImp => Sys2Proof.Machine.execCliImp s
  -- CLV, Clear Overflow (R176)
  | .clvImp => Sys2Proof.Machine.execClvImp s
  -- CMP, Compare Accumulator (R177)
  | .cmpImm n => Sys2Proof.Machine.execCmpImm n s
  | .cmpZp n => Sys2Proof.Machine.execCmpZp n s
  | .cmpZpx n => Sys2Proof.Machine.execCmpZpx n s
  | .cmpAbs lo hi => Sys2Proof.Machine.execCmpAbs lo hi s
  | .cmpAbx lo hi => Sys2Proof.Machine.execCmpAbx lo hi s
  | .cmpAby lo hi => Sys2Proof.Machine.execCmpAby lo hi s
  | .cmpIzx n => Sys2Proof.Machine.execCmpIzx n s
  | .cmpIzy n => Sys2Proof.Machine.execCmpIzy n s
  -- CPX, Compare X (R178)
  | .cpxImm n => Sys2Proof.Machine.execCpxImm n s
  | .cpxZp n => Sys2Proof.Machine.execCpxZp n s
  | .cpxAbs lo hi => Sys2Proof.Machine.execCpxAbs lo hi s
  -- CPY, Compare Y (R179)
  | .cpyImm n => Sys2Proof.Machine.execCpyImm n s
  | .cpyZp n => Sys2Proof.Machine.execCpyZp n s
  | .cpyAbs lo hi => Sys2Proof.Machine.execCpyAbs lo hi s
  -- DEC, Decrement Memory (R180)
  | .decZp n => Sys2Proof.Machine.execDecZp n s
  | .decZpx n => Sys2Proof.Machine.execDecZpx n s
  | .decAbs lo hi => Sys2Proof.Machine.execDecAbs lo hi s
  | .decAbx lo hi => Sys2Proof.Machine.execDecAbx lo hi s
  -- DEX, Decrement X (R181)
  | .dexImp => Sys2Proof.Machine.execDexImp s
  -- DEY, Decrement Y (R182)
  | .deyImp => Sys2Proof.Machine.execDeyImp s
  -- EOR, Exclusive OR (R183)
  | .eorImm n => Sys2Proof.Machine.execEorImm n s
  | .eorZp n => Sys2Proof.Machine.execEorZp n s
  | .eorZpx n => Sys2Proof.Machine.execEorZpx n s
  | .eorAbs lo hi => Sys2Proof.Machine.execEorAbs lo hi s
  | .eorAbx lo hi => Sys2Proof.Machine.execEorAbx lo hi s
  | .eorAby lo hi => Sys2Proof.Machine.execEorAby lo hi s
  | .eorIzx n => Sys2Proof.Machine.execEorIzx n s
  | .eorIzy n => Sys2Proof.Machine.execEorIzy n s
  -- INC, Increment Memory (R184)
  | .incZp n => Sys2Proof.Machine.execIncZp n s
  | .incZpx n => Sys2Proof.Machine.execIncZpx n s
  | .incAbs lo hi => Sys2Proof.Machine.execIncAbs lo hi s
  | .incAbx lo hi => Sys2Proof.Machine.execIncAbx lo hi s
  -- INX, Increment X (R185)
  | .inxImp => Sys2Proof.Machine.execInxImp s
  -- INY, Increment Y (R186)
  | .inyImp => Sys2Proof.Machine.execInyImp s
  -- JMP, Jump (R187)
  | .jmpAbs lo hi => Sys2Proof.Machine.execJmpAbs lo hi s
  | .jmpInd lo hi => Sys2Proof.Machine.execJmpInd lo hi s
  -- JSR, Jump to Subroutine (R188)
  | .jsrAbs lo hi => Sys2Proof.Machine.execJsrAbs lo hi s
  -- LDA, Load Accumulator (R189)
  | .ldaImm n => Sys2Proof.Machine.execLdaImm n s
  | .ldaZp n => Sys2Proof.Machine.execLdaZp n s
  | .ldaZpx n => Sys2Proof.Machine.execLdaZpx n s
  | .ldaAbs lo hi => Sys2Proof.Machine.execLdaAbs lo hi s
  | .ldaAbx lo hi => Sys2Proof.Machine.execLdaAbx lo hi s
  | .ldaAby lo hi => Sys2Proof.Machine.execLdaAby lo hi s
  | .ldaIzx n => Sys2Proof.Machine.execLdaIzx n s
  | .ldaIzy n => Sys2Proof.Machine.execLdaIzy n s
  -- LDX, Load X (R190)
  | .ldxImm n => Sys2Proof.Machine.execLdxImm n s
  | .ldxZp n => Sys2Proof.Machine.execLdxZp n s
  | .ldxZpy n => Sys2Proof.Machine.execLdxZpy n s
  | .ldxAbs lo hi => Sys2Proof.Machine.execLdxAbs lo hi s
  | .ldxAby lo hi => Sys2Proof.Machine.execLdxAby lo hi s
  -- LDY, Load Y (R191)
  | .ldyImm n => Sys2Proof.Machine.execLdyImm n s
  | .ldyZp n => Sys2Proof.Machine.execLdyZp n s
  | .ldyZpx n => Sys2Proof.Machine.execLdyZpx n s
  | .ldyAbs lo hi => Sys2Proof.Machine.execLdyAbs lo hi s
  | .ldyAbx lo hi => Sys2Proof.Machine.execLdyAbx lo hi s
  -- LSR, Logical Shift Right (R192)
  | .lsrAcc => Sys2Proof.Machine.execLsrAcc s
  | .lsrZp n => Sys2Proof.Machine.execLsrZp n s
  | .lsrZpx n => Sys2Proof.Machine.execLsrZpx n s
  | .lsrAbs lo hi => Sys2Proof.Machine.execLsrAbs lo hi s
  | .lsrAbx lo hi => Sys2Proof.Machine.execLsrAbx lo hi s
  -- NOP, No Operation (R193)
  | .nopImp => Sys2Proof.Machine.execNopImp s
  -- ORA, logical inclusive OR (R194)
  | .oraImm n => Sys2Proof.Machine.execOraImm n s
  | .oraZp n => Sys2Proof.Machine.execOraZp n s
  | .oraZpx n => Sys2Proof.Machine.execOraZpx n s
  | .oraAbs lo hi => Sys2Proof.Machine.execOraAbs lo hi s
  | .oraAbx lo hi => Sys2Proof.Machine.execOraAbx lo hi s
  | .oraAby lo hi => Sys2Proof.Machine.execOraAby lo hi s
  | .oraIzx n => Sys2Proof.Machine.execOraIzx n s
  | .oraIzy n => Sys2Proof.Machine.execOraIzy n s
  -- PHA, Push Accumulator (R195)
  | .phaImp => Sys2Proof.Machine.execPhaImp s
  -- PHP, Push Processor Status (R196)
  | .phpImp => Sys2Proof.Machine.execPhpImp s
  -- PLA, Pull Accumulator (R197)
  | .plaImp => Sys2Proof.Machine.execPlaImp s
  -- PLP, Pull Processor Status (R198)
  | .plpImp => Sys2Proof.Machine.execPlpImp s
  -- ROL, Rotate Left (R199)
  | .rolAcc => Sys2Proof.Machine.execRolAcc s
  | .rolZp n => Sys2Proof.Machine.execRolZp n s
  | .rolZpx n => Sys2Proof.Machine.execRolZpx n s
  | .rolAbs lo hi => Sys2Proof.Machine.execRolAbs lo hi s
  | .rolAbx lo hi => Sys2Proof.Machine.execRolAbx lo hi s
  -- ROR, Rotate Right (R200)
  | .rorAcc => Sys2Proof.Machine.execRorAcc s
  | .rorZp n => Sys2Proof.Machine.execRorZp n s
  | .rorZpx n => Sys2Proof.Machine.execRorZpx n s
  | .rorAbs lo hi => Sys2Proof.Machine.execRorAbs lo hi s
  | .rorAbx lo hi => Sys2Proof.Machine.execRorAbx lo hi s
  -- RTI, Return from Interrupt (R201)
  | .rtiImp => Sys2Proof.Machine.execRtiImp s
  -- RTS, Return from Subroutine (R202)
  | .rtsImp => Sys2Proof.Machine.execRtsImp s
  -- SBC, Subtract with Carry (R203)
  | .sbcImm n => Sys2Proof.Machine.execSbcImm n s
  | .sbcZp n => Sys2Proof.Machine.execSbcZp n s
  | .sbcZpx n => Sys2Proof.Machine.execSbcZpx n s
  | .sbcAbs lo hi => Sys2Proof.Machine.execSbcAbs lo hi s
  | .sbcAbx lo hi => Sys2Proof.Machine.execSbcAbx lo hi s
  | .sbcAby lo hi => Sys2Proof.Machine.execSbcAby lo hi s
  | .sbcIzx n => Sys2Proof.Machine.execSbcIzx n s
  | .sbcIzy n => Sys2Proof.Machine.execSbcIzy n s
  -- SEC, Set Carry (R204)
  | .secImp => Sys2Proof.Machine.execSecImp s
  -- SED, Set Decimal (R205)
  | .sedImp => Sys2Proof.Machine.execSedImp s
  -- SEI, Set Interrupt Disable (R206)
  | .seiImp => Sys2Proof.Machine.execSeiImp s
  -- STA, Store Accumulator (R207)
  | .staZp n => Sys2Proof.Machine.execStaZp n s
  | .staZpx n => Sys2Proof.Machine.execStaZpx n s
  | .staAbs lo hi => Sys2Proof.Machine.execStaAbs lo hi s
  | .staAbx lo hi => Sys2Proof.Machine.execStaAbx lo hi s
  | .staAby lo hi => Sys2Proof.Machine.execStaAby lo hi s
  | .staIzx n => Sys2Proof.Machine.execStaIzx n s
  | .staIzy n => Sys2Proof.Machine.execStaIzy n s
  -- STX, Store X (R208)
  | .stxZp n => Sys2Proof.Machine.execStxZp n s
  | .stxZpy n => Sys2Proof.Machine.execStxZpy n s
  | .stxAbs lo hi => Sys2Proof.Machine.execStxAbs lo hi s
  -- STY, Store Y (R209)
  | .styZp n => Sys2Proof.Machine.execStyZp n s
  | .styZpx n => Sys2Proof.Machine.execStyZpx n s
  | .styAbs lo hi => Sys2Proof.Machine.execStyAbs lo hi s
  -- TAX, Transfer A to X (R210)
  | .taxImp => Sys2Proof.Machine.execTaxImp s
  -- TAY, Transfer A to Y (R211)
  | .tayImp => Sys2Proof.Machine.execTayImp s
  -- TSX, Transfer Stack Pointer to X (R212)
  | .tsxImp => Sys2Proof.Machine.execTsxImp s
  -- TXA, Transfer X to A (R213)
  | .txaImp => Sys2Proof.Machine.execTxaImp s
  -- TXS, Transfer X to Stack Pointer (R214)
  | .txsImp => Sys2Proof.Machine.execTxsImp s
  -- TYA, Transfer Y to A (R215)
  | .tyaImp => Sys2Proof.Machine.execTyaImp s

end Sys2Proof.Machine
end

