-- ==== Sys2Proof/Machine/Step.lean ====
section
/-! DEFINITION. One step of the machine, and an instruction placed where a step fetches. -/

namespace Sys2Proof.Machine

/-- One step: the first pending port request is served; with none pending, one step of the caller's walk, which decodes
at the cursor and runs the instruction found (95_test_vectors.md, section 6; log entry 2). -/
def step (s : State) : Host.Outcome State Fault Refusal :=
  match s.pending with
  | r :: _ => servePort r s.popRequest
  | [] =>
    match fetch s with
    | .ok i => exec i s
    | .error o => o

/-- `s` with the instruction whose bits are `w` (numbered as spec/opcode_table.json numbers them) at the caller's
cursor, so that the next step runs it (log entry 2). -/
def State.withFetchWord (s : State) (nbits w : Nat) : State := s.placeInstruction (tableBytes nbits w)

end Sys2Proof.Machine
end

