-- ==== Sys2Proof/Safety.lean ====
section
/-! DEFINITION. What counts as a safe state and a safe run, in the terms the statements use. -/

namespace Sys2Proof.Machine

/-- The block serves requests: its construction check passed (R262). -/
abbrev State.Serving (s : State) : Prop := s.construction = .passed

/-- The construction verdict is the one R84 gives the block's parameter OPCODE_ROM (R13). -/
abbrev State.Checked (s : State) : Prop := s.construction = verdictOf s.opcodeRom

/-- A serving block that holds the opcode map of R66 (R260), with either value of EXT_MODES. -/
abbrev State.Standard (s : State) : Prop := s.Serving ∧ s.opcodeRom = opcodeTable

/-- The caller's next step is a step of its walk: no port request stands before it. -/
abbrev State.Walking (s : State) : Prop := s.Serving ∧ s.pending = []

/-- A run's next step exists: neither a fault nor a refusal. -/
def Runs (o : Host.Outcome State Fault Refusal) : Prop := ∃ t, o = .next t

/-- The state whose only change is an answer: what a request that raises an error leaves (R231). -/
def State.answersError (s : State) (e : BlockError) : State := s.answer (.error e)

/-- A report agrees with a table: some entry of the table has its mnemonic and mode, its bytes are that entry's opcode
followed by its operand bytes, their number is the mode's, and all of them are consumed (R100, R101, R150). -/
def InstructionReport.Agrees (rom : List Entry) (r : InstructionReport) : Prop :=
  ∃ e ∈ rom, r.decoded.mnemonic = e.mnemonic ∧ r.decoded.mode = e.mode ∧
    r.bytes = e.opcode :: r.decoded.operands ∧ r.decoded.operands.length = e.mode.operandSize ∧
    r.decoded.consumed = r.bytes.length

/-- An address answered for a mode: only memory modes have one, and the zero-page modes stay in zero page and report no
page cross (R51, R120, R121). -/
def addressInBounds (mode : Mode) (a : EffectiveAddress) : Prop :=
  mode.isMemory = true ∧
    ((mode = .zeroPage ∨ mode = .zeroPageX ∨ mode = .zeroPageY) → a.ea.toNat < 256 ∧ a.pageCrossed = false) ∧
    ((mode = .absolute ∨ mode = .indirectX) → a.pageCrossed = false)

/-- An answer agrees with a table; an address is one the Resolver answers for a memory mode, in that mode's bounds and
with that mode's reads. -/
def Response.Agrees (rom : List Entry) : Response → Prop
  | .opcode b => ∃ e ∈ rom, e.opcode = b
  | .entry m mode => ∃ e ∈ rom, e.mnemonic = m ∧ e.mode = mode
  | .encoded bytes => ∃ e ∈ rom, bytes.head? = some e.opcode ∧ bytes.length = 1 + e.mode.operandSize
  | .decoded d => ∃ e ∈ rom, d.mnemonic = e.mnemonic ∧ d.mode = e.mode ∧
      d.operands.length = e.mode.operandSize ∧ d.consumed = 1 + e.mode.operandSize
  | .address a reads => ∃ (mode : Mode) (operand : Word) (x y : Byte) (zpRead : Byte → Byte),
      resolveAddress mode operand x y zpRead = .ok a ∧ reads = zpReads mode operand x ∧ addressInBounds mode a
  | .name n => ∃ m, mnemonicName m = n
  | .instruction r => r.Agrees rom ∧ ∀ a, r.address = .ok a → addressInBounds r.decoded.mode a
  | .error e => ∀ d, e ≠ .duplicateTableEntry d

/-- The machine's invariant: the verdict is R84's, the caller's memory is canonical, the cursor is no further than the
stream's end, and the last answer agrees with the table. -/
def State.Inv (s : State) : Prop :=
  s.Checked ∧ memWf s.mem = true ∧ s.cursor ≤ s.stream.length ∧ ∀ r, s.response = some r → r.Agrees s.rom

/-- What the statements expect of one instruction (44_instructions.md, preamble): its opcode byte and operand bytes
encoded, the same pair and operand bytes decoded with `bytesConsumed = 1 + len(ops)`, its name, how the operand is read,
the Resolver's answer for its mode, and the cursor moved past it. -/
def State.delivers (s : State) (opcode : Byte) (m : Mnemonic) (mode : Mode) (ops : Bytes) : State :=
  { s with
    cursor := s.cursor + (1 + ops.length)
    response := some (.instruction
      { bytes := opcode :: ops
        decoded := ⟨m, mode, ops, 1 + ops.length⟩
        name := mnemonicName m
        reading := operandReading mode ops
        operand := operandWord ops
        address := resolveAddress mode ((operandWord ops).getD 0) s.x s.y s.zpRead
        reads := zpReads mode ((operandWord ops).getD 0) s.x }) }

/-- One row of R22's table (10_state.md): the mode's code, its operand bytes, whether it is a memory mode, whether it
exists only with EXT_MODES. -/
structure ModeRow where
  code : Nat
  operandBytes : Nat
  memory : Bool
  onlyExt : Bool
  deriving DecidableEq, Repr

/-- R22's table, as the rule lists it. -/
def modeRow : Mode → ModeRow
  | .accumulator => ⟨0, 0, false, false⟩
  | .implied => ⟨1, 0, false, false⟩
  | .immediate => ⟨2, 1, false, false⟩
  | .zeroPage => ⟨3, 1, true, false⟩
  | .zeroPageX => ⟨4, 1, true, false⟩
  | .zeroPageY => ⟨5, 1, true, false⟩
  | .absolute => ⟨6, 2, true, false⟩
  | .absoluteX => ⟨7, 2, true, false⟩
  | .absoluteY => ⟨8, 2, true, false⟩
  | .indirectX => ⟨9, 1, true, false⟩
  | .indirectY => ⟨10, 1, true, false⟩
  | .relative => ⟨11, 1, false, true⟩
  | .indirect => ⟨12, 2, false, true⟩

/-- One row of R23's table (10_state.md): the mnemonic's index, its three ASCII bytes, the entries it has without
EXT_MODES and with it. -/
structure MnemonicRow where
  index : Nat
  ascii : Byte × Byte × Byte
  entries : Nat
  extEntries : Nat
  deriving DecidableEq, Repr

/-- R23's table, as the rule lists it. -/
def mnemonicRow : Mnemonic → MnemonicRow
  | .adc => ⟨0, (0x41, 0x44, 0x43), 8, 8⟩
  | .and => ⟨1, (0x41, 0x4E, 0x44), 8, 8⟩
  | .asl => ⟨2, (0x41, 0x53, 0x4C), 5, 5⟩
  | .bcc => ⟨3, (0x42, 0x43, 0x43), 0, 1⟩
  | .bcs => ⟨4, (0x42, 0x43, 0x53), 0, 1⟩
  | .beq => ⟨5, (0x42, 0x45, 0x51), 0, 1⟩
  | .bit => ⟨6, (0x42, 0x49, 0x54), 2, 2⟩
  | .bmi => ⟨7, (0x42, 0x4D, 0x49), 0, 1⟩
  | .bne => ⟨8, (0x42, 0x4E, 0x45), 0, 1⟩
  | .bpl => ⟨9, (0x42, 0x50, 0x4C), 0, 1⟩
  | .brk => ⟨10, (0x42, 0x52, 0x4B), 1, 1⟩
  | .bvc => ⟨11, (0x42, 0x56, 0x43), 0, 1⟩
  | .bvs => ⟨12, (0x42, 0x56, 0x53), 0, 1⟩
  | .clc => ⟨13, (0x43, 0x4C, 0x43), 1, 1⟩
  | .cld => ⟨14, (0x43, 0x4C, 0x44), 1, 1⟩
  | .cli => ⟨15, (0x43, 0x4C, 0x49), 1, 1⟩
  | .clv => ⟨16, (0x43, 0x4C, 0x56), 1, 1⟩
  | .cmp => ⟨17, (0x43, 0x4D, 0x50), 8, 8⟩
  | .cpx => ⟨18, (0x43, 0x50, 0x58), 3, 3⟩
  | .cpy => ⟨19, (0x43, 0x50, 0x59), 3, 3⟩
  | .dec => ⟨20, (0x44, 0x45, 0x43), 4, 4⟩
  | .dex => ⟨21, (0x44, 0x45, 0x58), 1, 1⟩
  | .dey => ⟨22, (0x44, 0x45, 0x59), 1, 1⟩
  | .eor => ⟨23, (0x45, 0x4F, 0x52), 8, 8⟩
  | .inc => ⟨24, (0x49, 0x4E, 0x43), 4, 4⟩
  | .inx => ⟨25, (0x49, 0x4E, 0x58), 1, 1⟩
  | .iny => ⟨26, (0x49, 0x4E, 0x59), 1, 1⟩
  | .jmp => ⟨27, (0x4A, 0x4D, 0x50), 1, 2⟩
  | .jsr => ⟨28, (0x4A, 0x53, 0x52), 1, 1⟩
  | .lda => ⟨29, (0x4C, 0x44, 0x41), 8, 8⟩
  | .ldx => ⟨30, (0x4C, 0x44, 0x58), 5, 5⟩
  | .ldy => ⟨31, (0x4C, 0x44, 0x59), 5, 5⟩
  | .lsr => ⟨32, (0x4C, 0x53, 0x52), 5, 5⟩
  | .nop => ⟨33, (0x4E, 0x4F, 0x50), 1, 1⟩
  | .ora => ⟨34, (0x4F, 0x52, 0x41), 8, 8⟩
  | .pha => ⟨35, (0x50, 0x48, 0x41), 1, 1⟩
  | .php => ⟨36, (0x50, 0x48, 0x50), 1, 1⟩
  | .pla => ⟨37, (0x50, 0x4C, 0x41), 1, 1⟩
  | .plp => ⟨38, (0x50, 0x4C, 0x50), 1, 1⟩
  | .rol => ⟨39, (0x52, 0x4F, 0x4C), 5, 5⟩
  | .ror => ⟨40, (0x52, 0x4F, 0x52), 5, 5⟩
  | .rti => ⟨41, (0x52, 0x54, 0x49), 1, 1⟩
  | .rts => ⟨42, (0x52, 0x54, 0x53), 1, 1⟩
  | .sbc => ⟨43, (0x53, 0x42, 0x43), 8, 8⟩
  | .sec => ⟨44, (0x53, 0x45, 0x43), 1, 1⟩
  | .sed => ⟨45, (0x53, 0x45, 0x44), 1, 1⟩
  | .sei => ⟨46, (0x53, 0x45, 0x49), 1, 1⟩
  | .sta => ⟨47, (0x53, 0x54, 0x41), 7, 7⟩
  | .stx => ⟨48, (0x53, 0x54, 0x58), 3, 3⟩
  | .sty => ⟨49, (0x53, 0x54, 0x59), 3, 3⟩
  | .tax => ⟨50, (0x54, 0x41, 0x58), 1, 1⟩
  | .tay => ⟨51, (0x54, 0x41, 0x59), 1, 1⟩
  | .tsx => ⟨52, (0x54, 0x53, 0x58), 1, 1⟩
  | .txa => ⟨53, (0x54, 0x58, 0x41), 1, 1⟩
  | .txs => ⟨54, (0x54, 0x58, 0x53), 1, 1⟩
  | .tya => ⟨55, (0x54, 0x59, 0x41), 1, 1⟩

/-- The illegal bytes of R68 (30_encoding.md), as the rule lists them. -/
def illegalBytes : Bytes :=
  [0x02, 0x03, 0x04, 0x07, 0x0B, 0x0C, 0x0F, 0x12, 0x13, 0x14, 0x17, 0x1A, 0x1B, 0x1C, 0x1F, 0x22, 0x23, 0x27] ++
  [0x2B, 0x2F, 0x32, 0x33, 0x34, 0x37, 0x3A, 0x3B, 0x3C, 0x3F, 0x42, 0x43, 0x44, 0x47, 0x4B, 0x4F, 0x52, 0x53] ++
  [0x54, 0x57, 0x5A, 0x5B, 0x5C, 0x5F, 0x62, 0x63, 0x64, 0x67, 0x6B, 0x6F, 0x72, 0x73, 0x74, 0x77, 0x7A, 0x7B] ++
  [0x7C, 0x7F, 0x80, 0x82, 0x83, 0x87, 0x89, 0x8B, 0x8F, 0x92, 0x93, 0x97, 0x9B, 0x9C, 0x9E, 0x9F, 0xA3, 0xA7] ++
  [0xAB, 0xAF, 0xB2, 0xB3, 0xB7, 0xBB, 0xBF, 0xC2, 0xC3, 0xC7, 0xCB, 0xCF, 0xD2, 0xD3, 0xD4, 0xD7, 0xDA, 0xDB] ++
  [0xDC, 0xDF, 0xE2, 0xE3, 0xE7, 0xEB, 0xEF, 0xF2, 0xF3, 0xF4, 0xF7, 0xFA, 0xFB, 0xFC, 0xFF]

/-- The extension-only rows of R69 (30_encoding.md), as the rule lists them. -/
def extensionRows : List Entry :=
  [⟨.bpl, .relative, 0x10⟩, ⟨.bmi, .relative, 0x30⟩, ⟨.bvc, .relative, 0x50⟩, ⟨.bvs, .relative, 0x70⟩,
   ⟨.bcc, .relative, 0x90⟩, ⟨.bcs, .relative, 0xB0⟩, ⟨.bne, .relative, 0xD0⟩, ⟨.beq, .relative, 0xF0⟩,
   ⟨.jmp, .indirect, 0x6C⟩]

/-- The rows of each mnemonic's own rule (R160 to R215, 44_instructions.md): the modes it supports, with their opcode
bytes. -/
def ruleRows : Mnemonic → List (Mode × Byte)
  | .adc => [(.immediate, 0x69), (.zeroPage, 0x65), (.zeroPageX, 0x75), (.absolute, 0x6D), (.absoluteX, 0x7D),
      (.absoluteY, 0x79), (.indirectX, 0x61), (.indirectY, 0x71)]
  | .and => [(.immediate, 0x29), (.zeroPage, 0x25), (.zeroPageX, 0x35), (.absolute, 0x2D), (.absoluteX, 0x3D),
      (.absoluteY, 0x39), (.indirectX, 0x21), (.indirectY, 0x31)]
  | .asl => [(.accumulator, 0x0A), (.zeroPage, 0x06), (.zeroPageX, 0x16), (.absolute, 0x0E), (.absoluteX, 0x1E)]
  | .bcc => [(.relative, 0x90)]
  | .bcs => [(.relative, 0xB0)]
  | .beq => [(.relative, 0xF0)]
  | .bit => [(.zeroPage, 0x24), (.absolute, 0x2C)]
  | .bmi => [(.relative, 0x30)]
  | .bne => [(.relative, 0xD0)]
  | .bpl => [(.relative, 0x10)]
  | .brk => [(.implied, 0x00)]
  | .bvc => [(.relative, 0x50)]
  | .bvs => [(.relative, 0x70)]
  | .clc => [(.implied, 0x18)]
  | .cld => [(.implied, 0xD8)]
  | .cli => [(.implied, 0x58)]
  | .clv => [(.implied, 0xB8)]
  | .cmp => [(.immediate, 0xC9), (.zeroPage, 0xC5), (.zeroPageX, 0xD5), (.absolute, 0xCD), (.absoluteX, 0xDD),
      (.absoluteY, 0xD9), (.indirectX, 0xC1), (.indirectY, 0xD1)]
  | .cpx => [(.immediate, 0xE0), (.zeroPage, 0xE4), (.absolute, 0xEC)]
  | .cpy => [(.immediate, 0xC0), (.zeroPage, 0xC4), (.absolute, 0xCC)]
  | .dec => [(.zeroPage, 0xC6), (.zeroPageX, 0xD6), (.absolute, 0xCE), (.absoluteX, 0xDE)]
  | .dex => [(.implied, 0xCA)]
  | .dey => [(.implied, 0x88)]
  | .eor => [(.immediate, 0x49), (.zeroPage, 0x45), (.zeroPageX, 0x55), (.absolute, 0x4D), (.absoluteX, 0x5D),
      (.absoluteY, 0x59), (.indirectX, 0x41), (.indirectY, 0x51)]
  | .inc => [(.zeroPage, 0xE6), (.zeroPageX, 0xF6), (.absolute, 0xEE), (.absoluteX, 0xFE)]
  | .inx => [(.implied, 0xE8)]
  | .iny => [(.implied, 0xC8)]
  | .jmp => [(.absolute, 0x4C), (.indirect, 0x6C)]
  | .jsr => [(.absolute, 0x20)]
  | .lda => [(.immediate, 0xA9), (.zeroPage, 0xA5), (.zeroPageX, 0xB5), (.absolute, 0xAD), (.absoluteX, 0xBD),
      (.absoluteY, 0xB9), (.indirectX, 0xA1), (.indirectY, 0xB1)]
  | .ldx => [(.immediate, 0xA2), (.zeroPage, 0xA6), (.zeroPageY, 0xB6), (.absolute, 0xAE), (.absoluteY, 0xBE)]
  | .ldy => [(.immediate, 0xA0), (.zeroPage, 0xA4), (.zeroPageX, 0xB4), (.absolute, 0xAC), (.absoluteX, 0xBC)]
  | .lsr => [(.accumulator, 0x4A), (.zeroPage, 0x46), (.zeroPageX, 0x56), (.absolute, 0x4E), (.absoluteX, 0x5E)]
  | .nop => [(.implied, 0xEA)]
  | .ora => [(.immediate, 0x09), (.zeroPage, 0x05), (.zeroPageX, 0x15), (.absolute, 0x0D), (.absoluteX, 0x1D),
      (.absoluteY, 0x19), (.indirectX, 0x01), (.indirectY, 0x11)]
  | .pha => [(.implied, 0x48)]
  | .php => [(.implied, 0x08)]
  | .pla => [(.implied, 0x68)]
  | .plp => [(.implied, 0x28)]
  | .rol => [(.accumulator, 0x2A), (.zeroPage, 0x26), (.zeroPageX, 0x36), (.absolute, 0x2E), (.absoluteX, 0x3E)]
  | .ror => [(.accumulator, 0x6A), (.zeroPage, 0x66), (.zeroPageX, 0x76), (.absolute, 0x6E), (.absoluteX, 0x7E)]
  | .rti => [(.implied, 0x40)]
  | .rts => [(.implied, 0x60)]
  | .sbc => [(.immediate, 0xE9), (.zeroPage, 0xE5), (.zeroPageX, 0xF5), (.absolute, 0xED), (.absoluteX, 0xFD),
      (.absoluteY, 0xF9), (.indirectX, 0xE1), (.indirectY, 0xF1)]
  | .sec => [(.implied, 0x38)]
  | .sed => [(.implied, 0xF8)]
  | .sei => [(.implied, 0x78)]
  | .sta => [(.zeroPage, 0x85), (.zeroPageX, 0x95), (.absolute, 0x8D), (.absoluteX, 0x9D), (.absoluteY, 0x99),
      (.indirectX, 0x81), (.indirectY, 0x91)]
  | .stx => [(.zeroPage, 0x86), (.zeroPageY, 0x96), (.absolute, 0x8E)]
  | .sty => [(.zeroPage, 0x84), (.zeroPageX, 0x94), (.absolute, 0x8C)]
  | .tax => [(.implied, 0xAA)]
  | .tay => [(.implied, 0xA8)]
  | .tsx => [(.implied, 0xBA)]
  | .txa => [(.implied, 0x8A)]
  | .txs => [(.implied, 0x9A)]
  | .tya => [(.implied, 0x98)]

/-- The opcode byte that a mnemonic's own rule gives a mode, in a block with this EXT_MODES. -/
def ruleOpcode (ext : Bool) (m : Mnemonic) (mode : Mode) : Option Byte :=
  if ext || !mode.isExt then (ruleRows m).lookup mode else none

end Sys2Proof.Machine
end

