-- ==== Sys2Proof/Certificates/Slice0/Obligations.lean ====
section
/-! DEFINITION. The statements for the provers. Each says what the block does by the rules of spec/ that its entry in
OBLIGATIONS.json cites; the terms they share are in Sys2Proof/Safety.lean. -/

open Sys2Proof Sys2Proof.Machine

/-- Decoding the bytes of any well-formed instruction, anywhere in a stream, gives that instruction (R60, R61, R65,
R66, R150, R153). -/
def Obligations.DecodeOfEncodeIsTheInstruction : Prop :=
  ∀ (ext : Bool) (i : Instr) (before after : Bytes), i.wellFormed ext = true →
    ∃ d, decode (romFor ext) (before ++ encodeInstr i ++ after) before.length = .ok d ∧
      Instr.ofTriple d.mnemonic d.mode d.operands = some i ∧ d.consumed = (encodeInstr i).length

/-- Round-trip law: decode of encode returns mnemonic, mode and operand bytes unchanged (R104). -/
def Obligations.EncodeThenDecodeRoundTrips : Prop :=
  (∀ ext, build (romFor ext) = .ok (romFor ext)) ∧
  ∀ (rom : List Entry) (e : Entry) (ops : Bytes), build rom = .ok rom → e ∈ rom → ops.length = e.mode.operandSize →
    ∃ bytes, encode rom e.mnemonic.name e.mode ops = .ok bytes ∧
      decode rom bytes 0 = .ok ⟨e.mnemonic, e.mode, ops, 1 + e.mode.operandSize⟩

/-- The two lookups are inverse on the entries of the table (R83). -/
def Obligations.LookupsAreInverse : Prop :=
  ∀ (rom : List Entry) (e : Entry), build rom = .ok rom → e ∈ rom →
    lookupOpcode rom e.mnemonic.name e.mode = .ok e.opcode ∧
    lookupInstruction rom e.opcode = .ok (e.mnemonic, e.mode)

/-- The opcode map is injective in both directions (R65). -/
def Obligations.OpcodeMapIsInjective : Prop :=
  (∀ (ext : Bool) (e f : Entry), e ∈ romFor ext → f ∈ romFor ext →
    (e.opcode = f.opcode → e = f) ∧ (e.mnemonic = f.mnemonic → e.mode = f.mode → e = f)) ∧
  (romFor true).length = 151 ∧ (romFor true).Nodup

/-- lookupOpcode gives every mnemonic and mode what the mnemonic's own rule gives it (44_instructions.md, R80, R81,
R66). -/
def Obligations.OpcodeMapIsTheMnemonicRules : Prop :=
  ∀ (ext : Bool) (m : Mnemonic) (mode : Mode),
    lookupOpcode (romFor ext) m.name mode =
      match ruleOpcode ext m mode with
      | some b => .ok b
      | none =>
        if Mode.all.any (fun k => (ruleOpcode ext m k).isSome) then .error (.unsupportedAddressingMode m.name mode)
        else .error (.unknownMnemonic m.name)

/-- Exactly the listed bytes are illegal, and the nine extension bytes are entries exactly with EXT_MODES (R68,
R69). -/
def Obligations.IllegalBytesAreTheListed : Prop :=
  illegalBytes.length = 105 ∧ (illegalBytes ++ extensionRows.map (·.opcode)).length = 114 ∧
  (illegalBytes ++ extensionRows.map (·.opcode)).Nodup ∧
  (∀ b : Byte, lookupInstruction (romFor true) b = .error (.illegalOpcode b) ↔ b ∈ illegalBytes) ∧
  (∀ b : Byte, lookupInstruction (romFor false) b = .error (.illegalOpcode b) ↔
    b ∈ illegalBytes ∨ b ∈ extensionRows.map (·.opcode)) ∧
  (∀ e ∈ extensionRows, lookupInstruction (romFor true) e.opcode = .ok (e.mnemonic, e.mode))

/-- Construction passes exactly the tables without duplicates, and reports the first offender otherwise (R13, R84,
R233, R230). The fault of construct is log entry 9, the list that it checks log entry 17. -/
def Obligations.ConstructionFindsTheFirstDuplicate : Prop :=
  (∀ L : List Entry, build L = .ok L ↔
    (L.map (fun e => (e.mnemonic, e.mode))).Nodup ∧ (L.map (·.opcode)).Nodup) ∧
  (∀ (L : List Entry) (e : Entry), build L = .error (.duplicateTableEntry e) ↔
    ∃ before after, L = before ++ e :: after ∧
      (before.map (fun f => (f.mnemonic, f.mode))).Nodup ∧ (before.map (·.opcode)).Nodup ∧
      ((∃ f ∈ before, f.mnemonic = e.mnemonic ∧ f.mode = e.mode) ∨ ∃ f ∈ before, f.opcode = e.opcode)) ∧
  (∀ (ext : Bool) (L : List Entry) (e : Entry),
    construct ext L = .fault (.duplicateTableEntry e) ↔ build L = .error (.duplicateTableEntry e))

/-- The opcode map passes construction under both values of EXT_MODES, and the default block is the reset state
(R84, R234, R260, R262). The caller's inputs of that block are the model's choices (log entries 3 to 7). -/
def Obligations.OpcodeMapConstructs : Prop :=
  (∀ ext : Bool, construct ext opcodeTable = .next (powerOn ext opcodeTable)) ∧
  powerOn false opcodeTable = State.reset

/-- A block whose OPCODE_ROM fails the construction check refuses every request (R13, R84, R235, R236). The verdict
as a field is log entry 9, the list that the check covers log entry 17. -/
def Obligations.FailedConstructionRefusesEveryRequest : Prop :=
  (∀ s : State, s.Checked → build s.opcodeRom ≠ .ok s.opcodeRom →
    step s = .refused .constructionFailed ∧
    (∀ r : Request, servePort r s = .refused .constructionFailed) ∧
    (∀ i : Instr, exec i s = .refused .constructionFailed)) ∧
  (∀ (ext : Bool) (L : List Entry), (powerOn ext L).Checked ∧ (powerOn ext L).opcodeRom = L)

/-- lookupOpcode: the entry's byte, else UnsupportedAddressingMode, else UnknownMnemonic (R80, R81, R233). -/
def Obligations.LookupOpcodeSortsItsErrors : Prop :=
  ∀ (rom : List Entry) (m : Text) (mode : Mode), build rom = .ok rom →
    (∀ b, lookupOpcode rom m mode = .ok b ↔ ∃ e ∈ rom, e.mnemonic.name = m ∧ e.mode = mode ∧ e.opcode = b) ∧
    (lookupOpcode rom m mode = .error (.unsupportedAddressingMode m mode) ↔
      (∃ e ∈ rom, e.mnemonic.name = m) ∧ ¬ ∃ e ∈ rom, e.mnemonic.name = m ∧ e.mode = mode) ∧
    (lookupOpcode rom m mode = .error (.unknownMnemonic m) ↔ ¬ ∃ e ∈ rom, e.mnemonic.name = m)

/-- lookupInstruction: the entry of the byte, else IllegalOpcode (R82, R233). -/
def Obligations.LookupInstructionReadsTheEntry : Prop :=
  ∀ (rom : List Entry) (b : Byte), build rom = .ok rom →
    (∀ m mode, lookupInstruction rom b = .ok (m, mode) ↔
      ∃ e ∈ rom, e.mnemonic = m ∧ e.mode = mode ∧ e.opcode = b) ∧
    (lookupInstruction rom b = .error (.illegalOpcode b) ↔ ¬ ∃ e ∈ rom, e.opcode = b)

/-- The 11-bit ROM word holds valid bit, mnemonic index and mode code, and reading it is the lookup (R71, R82). The
layout of the word and its numbers are the choices of the spec named in log entry 18. -/
def Obligations.RomWordHoldsTheEntry : Prop :=
  ∀ rom : List Entry, build rom = .ok rom →
    (∀ e ∈ rom, (romWord rom e.opcode).getLsbD 10 = true ∧
      (romWord rom e.opcode).extractLsb' 4 6 = e.mnemonic.index ∧
      (romWord rom e.opcode).extractLsb' 0 4 = e.mode.code) ∧
    (∀ b : Byte, (∀ e ∈ rom, e.opcode ≠ b) → romWord rom b = 0) ∧
    (∀ b : Byte, readRomWord true (romWord rom b) = (lookupInstruction rom b).toOption)

/-- The name of every mnemonic is its row of R23: three upper-case ASCII letters, no two names equal; and its
entries (R23, R29, R80, R87). The opcode map is log entry 8. -/
def Obligations.NamesAreDistinctUppercaseTexts : Prop :=
  (∀ m : Mnemonic, mnemonicName m = (mnemonicRow m).ascii ∧
    m.name = [(mnemonicRow m).ascii.1, (mnemonicRow m).ascii.2.1, (mnemonicRow m).ascii.2.2] ∧
    (romFor false).countP (fun e => e.mnemonic == m) = (mnemonicRow m).entries ∧
    (romFor true).countP (fun e => e.mnemonic == m) = (mnemonicRow m).extEntries) ∧
  (∀ m : Mnemonic, m.name.length = 3 ∧ ∀ b ∈ m.name, 0x41 ≤ b.toNat ∧ b.toNat ≤ 0x5A) ∧
  (∀ m n : Mnemonic, mnemonicName m = mnemonicName n → m = n) ∧
  (romFor false).length = 142 ∧ (romFor true).length = 151

/-- The number of every mode and mnemonic, as R22 and R23 list them, and which raw numbers name nothing (R22, R23,
R62, 92_eei_decisions.md D16). The numbers are the choices of the spec named in log entry 18. -/
def Obligations.RawCodesNameWhatTheyShould : Prop :=
  (∀ mode : Mode, mode.code.toNat = (modeRow mode).code ∧ mode.operandSize = (modeRow mode).operandBytes ∧
    mode.isMemory = (modeRow mode).memory ∧ mode.isExt = (modeRow mode).onlyExt) ∧
  (∀ m : Mnemonic, m.index.toNat = (mnemonicRow m).index) ∧
  (∀ (ext : Bool) (mode : Mode), (ext || !mode.isExt) = true → Mode.ofCode ext mode.code = some mode) ∧
  (∀ (ext : Bool) (c : BitVec 4), Mode.ofCode ext c = none ↔ 13 ≤ c.toNat ∨ (ext = false ∧ 11 ≤ c.toNat)) ∧
  (∀ m : Mnemonic, Mnemonic.ofIndex m.index = some m) ∧
  (∀ i : BitVec 6, Mnemonic.ofIndex i = none ↔ 56 ≤ i.toNat)

/-- The worked examples of the table and the Encoder (R88, R105). -/
def Obligations.WorkedTableExamples : Prop :=
  ∀ ext : Bool,
    lookupOpcode (romFor ext) [0x41, 0x44, 0x43] .implied =
      .error (.unsupportedAddressingMode [0x41, 0x44, 0x43] .implied) ∧
    lookupInstruction (romFor ext) 0xFF = .error (.illegalOpcode 0xFF) ∧
    encode (romFor ext) [0x41, 0x53, 0x4C] .accumulator [] = .ok [0x0A] ∧
    encode (romFor ext) [0x41, 0x53, 0x4C] .zeroPage [0x10] = .ok [0x06, 0x10]

/-- encode: exactly when it answers bytes, which, and which error otherwise (R100, R101, R102, R103). -/
def Obligations.EncodeChecksLookupThenSize : Prop :=
  ∀ (rom : List Entry) (m : Text) (mode : Mode) (ops : Bytes),
    (∀ bytes, encode rom m mode ops = .ok bytes ↔
      ∃ b, lookupOpcode rom m mode = .ok b ∧ ops.length = mode.operandSize ∧ bytes = b :: ops) ∧
    (∀ e, encode rom m mode ops = .error e ↔
      lookupOpcode rom m mode = .error e ∨
      ((∃ b, lookupOpcode rom m mode = .ok b) ∧ ops.length ≠ mode.operandSize ∧
        e = .operandSizeMismatch mode.operandSize ops.length))

/-- decode: the answer or the error at every cursor, in the order of its checks (R150, R151, R152, R233). -/
def Obligations.DecodeChecksCursorOpcodeThenLength : Prop :=
  ∀ (rom : List Entry) (bytes : Bytes) (cursor : Nat),
    (bytes.length ≤ cursor → decode rom bytes cursor = .error (.truncatedInstruction 1 0)) ∧
    ∀ b, bytes[cursor]? = some b →
      (∀ e, lookupInstruction rom b = .error e → decode rom bytes cursor = .error e) ∧
      ∀ m mode, lookupInstruction rom b = .ok (m, mode) →
        (bytes.length - cursor - 1 < mode.operandSize →
          decode rom bytes cursor =
            .error (.truncatedInstruction mode.operandSize (bytes.length - cursor - 1))) ∧
        (mode.operandSize ≤ bytes.length - cursor - 1 →
          decode rom bytes cursor =
            .ok ⟨m, mode, (bytes.drop (cursor + 1)).take mode.operandSize, 1 + mode.operandSize⟩)

/-- decode sees only the bytes from the cursor on (R153, R154, R56). -/
def Obligations.DecodeIsPositionIndependent : Prop :=
  ∀ (rom : List Entry) (before bytes : Bytes) (cursor : Nat),
    decode rom (before ++ bytes) (before.length + cursor) = decode rom bytes cursor

/-- ZeroPage, ZeroPageX and ZeroPageY: the address modulo 256, never a page cross (R122, R123, R124, R51, R133). -/
def Obligations.ZeroPageModesStayInZeroPage : Prop :=
  ∀ (operand : Word) (x y : Byte) (zp : Byte → Byte),
    (∃ a, resolveAddress .zeroPage operand x y zp = .ok a ∧
      a.ea.toNat = operand.toNat % 256 ∧ a.pageCrossed = false) ∧
    (∃ a, resolveAddress .zeroPageX operand x y zp = .ok a ∧
      a.ea.toNat = (operand.toNat % 256 + x.toNat) % 256 ∧ a.pageCrossed = false) ∧
    (∃ a, resolveAddress .zeroPageY operand x y zp = .ok a ∧
      a.ea.toNat = (operand.toNat % 256 + y.toNat) % 256 ∧ a.pageCrossed = false)

/-- Absolute, AbsoluteX and AbsoluteY: the address modulo 65536, and the page cross of the indexed ones (R125, R126,
R127, R133). -/
def Obligations.AbsoluteModesAddWithCarry : Prop :=
  ∀ (operand : Word) (x y : Byte) (zp : Byte → Byte),
    (∃ a, resolveAddress .absolute operand x y zp = .ok a ∧ a.ea = operand ∧ a.pageCrossed = false) ∧
    (∃ a, resolveAddress .absoluteX operand x y zp = .ok a ∧
      a.ea.toNat = (operand.toNat + x.toNat) % 65536 ∧
      (a.pageCrossed = true ↔ operand.toNat / 256 ≠ a.ea.toNat / 256)) ∧
    (∃ a, resolveAddress .absoluteY operand x y zp = .ok a ∧
      a.ea.toNat = (operand.toNat + y.toNat) % 65536 ∧
      (a.pageCrossed = true ↔ operand.toNat / 256 ≠ a.ea.toNat / 256))

/-- IndirectX and IndirectY: the pointer word in zero page, low byte first, wrapping within zero page (R128, R129,
R44, R47). -/
def Obligations.IndirectModesReadTheirPointer : Prop :=
  ∀ (operand : Word) (x y p : Byte) (zp : Byte → Byte),
    (p.toNat = (operand.toNat + x.toNat) % 256 →
      ∃ a, resolveAddress .indirectX operand x y zp = .ok a ∧
        a.ea.toNat = (zp p).toNat + 256 * (zp (BitVec.ofNat 8 ((p.toNat + 1) % 256))).toNat ∧ a.pageCrossed = false) ∧
    (p.toNat = operand.toNat % 256 →
      ∃ a, resolveAddress .indirectY operand x y zp = .ok a ∧
        a.ea.toNat =
          ((zp p).toNat + 256 * (zp (BitVec.ofNat 8 ((p.toNat + 1) % 256))).toNat + y.toNat) % 65536 ∧
        (a.pageCrossed = true ↔ (zp (BitVec.ofNat 8 ((p.toNat + 1) % 256))).toNat ≠ a.ea.toNat / 256))

/-- Accumulator, Implied, Immediate, Relative and Indirect raise NoEffectiveAddress (R130, R131). -/
def Obligations.OtherModesHaveNoAddress : Prop :=
  ∀ (mode : Mode) (operand : Word) (x y : Byte) (zp : Byte → Byte),
    if mode = .accumulator ∨ mode = .implied ∨ mode = .immediate ∨ mode = .relative ∨ mode = .indirect then
      resolveAddress mode operand x y zp = .error (.noEffectiveAddress mode)
    else ∃ a, resolveAddress mode operand x y zp = .ok a

/-- One 8-bit adder with a high-byte incrementer computes every mode's address and flag (R132). -/
def Obligations.AdderIsTheResolver : Prop :=
  (∀ (mode : Mode) (operand : Word) (x y : Byte) (zp : Byte → Byte),
    resolveByAdder mode operand x y zp = resolveAddress mode operand x y zp) ∧
  (∀ (base : Word) (i : Byte),
    (adder8 (loByte base) i).1 = pageCrossed base (base + i.setWidth 16) ∧
    (adder8 (loByte base) i).2 = loByte (base + i.setWidth 16))

/-- pageCrossed is true exactly when the indexed low byte carries, and only in the three indexed 16-bit modes (R121,
R132, R134). -/
def Obligations.PageCrossIsAnIndexCarry : Prop :=
  ∀ (mode : Mode) (operand : Word) (x y : Byte) (zp : Byte → Byte) (a : EffectiveAddress),
    resolveAddress mode operand x y zp = .ok a →
      (a.pageCrossed = true → mode = .absoluteX ∨ mode = .absoluteY ∨ mode = .indirectY) ∧
      (mode = .absoluteX → (a.pageCrossed = true ↔ 256 ≤ operand.toNat % 256 + x.toNat)) ∧
      (mode = .absoluteY → (a.pageCrossed = true ↔ 256 ≤ operand.toNat % 256 + y.toNat)) ∧
      (mode = .indirectY → (a.pageCrossed = true ↔ 256 ≤ (zp (loByte operand)).toNat + y.toNat))

/-- The Resolver's answer depends on memory only through the reads it issues: two or none (R40, R48, R49, R50). -/
def Obligations.ResolverDependsOnItsReadsOnly : Prop :=
  (∀ (mode : Mode) (operand : Word) (x y : Byte) (zp zp' : Byte → Byte),
    (∀ a ∈ zpReads mode operand x, zp a = zp' a) →
      resolveAddress mode operand x y zp = resolveAddress mode operand x y zp') ∧
  (∀ (mode : Mode) (operand : Word) (x : Byte),
    if mode = .indirectX ∨ mode = .indirectY then ∃ p, zpReads mode operand x = [p, p + 1]
    else zpReads mode operand x = [])

/-- Inputs that a mode's formula does not name do not change its answer (R120, 92_eei_decisions.md D6). -/
def Obligations.UnnamedInputsAreIgnored : Prop :=
  ∀ (mode : Mode) (operand operand' : Word) (x x' y y' : Byte) (zp zp' : Byte → Byte),
    (mode ≠ .zeroPageY → mode ≠ .absoluteY → mode ≠ .indirectY →
      resolveAddress mode operand x y zp = resolveAddress mode operand x y' zp) ∧
    (mode ≠ .zeroPageX → mode ≠ .absoluteX → mode ≠ .indirectX →
      resolveAddress mode operand x y zp = resolveAddress mode operand x' y zp) ∧
    (mode ≠ .indirectX → mode ≠ .indirectY →
      resolveAddress mode operand x y zp = resolveAddress mode operand x y zp') ∧
    (mode.operandSize = 1 → operand.toNat % 256 = operand'.toNat % 256 →
      resolveAddress mode operand x y zp = resolveAddress mode operand' x y zp)

/-- The worked examples of the Resolver (R135). -/
def Obligations.WorkedResolverExamples : Prop :=
  ∀ (x y : Byte) (zp : Byte → Byte),
    resolveAddress .zeroPageX 0x00FF 0x02 y zp = .ok ⟨0x0001, false⟩ ∧
    resolveAddress .absoluteX 0x20FF 0x01 y zp = .ok ⟨0x2100, true⟩ ∧
    (zp 0x10 = 0xFF → zp 0x11 = 0x30 → resolveAddress .indirectY 0x0010 x 0x01 zp = .ok ⟨0x3100, true⟩)

/-- A walk step runs the instruction decoded at the cursor, which moves the cursor past it (R20, R150,
95_test_vectors.md section 6). The step, its stream and cursor, and the answer held in State are the model's
choices (log entries 2, 3 and 7). -/
def Obligations.StepRunsTheDecodedInstruction : Prop :=
  ∀ (s : State) (d : Decoded) (i : Instr), s.Walking → decode s.rom s.stream s.cursor = .ok d →
    Instr.ofTriple d.mnemonic d.mode d.operands = some i →
      step s = exec i s ∧ (s.Checked → ∃ t, exec i s = .next t ∧ t.cursor = s.cursor + d.consumed)

/-- A walk step is decode at the cursor, then resolveAddress, then the next cursor, with operands read as R45 and
R63 say (R20, R43, R45, R63, R83, R150, R153, R231, 95_test_vectors.md section 6). The step, its stream and
cursor, the report and the answer held in State are the model's choices (log entries 1, 2, 3 and 7), as is the
service of a pair that the opcode map lacks (log entry 11); the readings of Relative and Indirect are log entry
13. -/
def Obligations.StepIsDecodeThenResolve : Prop :=
  (∀ s : State, s.Checked → s.Walking →
    (∀ e, decode s.rom s.stream s.cursor = .error e → step s = .next { s with response := some (.error e) }) ∧
    (∀ d, decode s.rom s.stream s.cursor = .ok d →
      step s = .next { s with
        cursor := s.cursor + d.consumed
        response := some (.instruction
          { bytes := (s.stream.drop s.cursor).take d.consumed
            decoded := d
            name := mnemonicName d.mnemonic
            reading := operandReading d.mode d.operands
            operand := operandWord d.operands
            address := resolveAddress d.mode ((operandWord d.operands).getD 0) s.x s.y s.zpRead
            reads := zpReads d.mode ((operandWord d.operands).getD 0) s.x }) })) ∧
  operandWord [] = none ∧ operandReading .accumulator [] = some .accumulator ∧
  operandReading .implied [] = some .noOperand ∧
  ∀ lo hi : Byte,
    operandReading .immediate [lo] = some (.value lo) ∧
    operandReading .zeroPageX [lo] = some (.zeroPageBase lo) ∧ operandReading .zeroPageY [lo] = some (.zeroPageBase lo) ∧
    operandReading .indirectX [lo] = some (.pointerTableBase lo) ∧
    operandReading .indirectY [lo] = some (.pointerAddress lo) ∧
    (∃ a : Word, a.toNat = lo.toNat ∧ operandWord [lo] = some a ∧
      operandReading .zeroPage [lo] = some (.zeroPageAddress a)) ∧
    (∃ d : Word, d.toNat = (if lo.toNat < 128 then lo.toNat else 65280 + lo.toNat) ∧
      operandReading .relative [lo] = some (.displacement d)) ∧
    (∃ a : Word, a.toNat = lo.toNat + 256 * hi.toNat ∧ operandWord [lo, hi] = some a ∧
      operandReading .absolute [lo, hi] = some (.address a) ∧ operandReading .absoluteX [lo, hi] = some (.address a) ∧
      operandReading .absoluteY [lo, hi] = some (.address a) ∧
      operandReading .indirect [lo, hi] = some (.indirectPointer a))

/-- A request that raises an error answers the error and changes no state (R231). The list of pending requests and
the answer held in State are the model's choices (log entries 6 and 7). -/
def Obligations.ErrorAnswersChangeNothingElse : Prop :=
  ∀ (s t : State) (e : BlockError), step s = .next t → t.response = some (.error e) →
    t = { s with pending := s.pending.tail, response := some (.error e) }

/-- What every instruction leaves unchanged (R30, R31, R40, R21, R53, 44_instructions.md). That exec is this
service, with the cursor moved, is the model's choice (log entries 1, 2 and 7). -/
def Obligations.InstructionFrame : Prop :=
  ∀ (i : Instr) (s t : State), exec i s = .next t →
    t.opcodeRom = s.opcodeRom ∧ t.extModes = s.extModes ∧ t.construction = s.construction ∧ t.rom = s.rom ∧
    t.stream = s.stream ∧ t.x = s.x ∧ t.y = s.y ∧ t.pending = s.pending ∧ t.mem = s.mem ∧
    (∀ a : Word, memRead t.mem a = memRead s.mem a) ∧
    ((∃ e, t.response = some (.error e) ∧ t.cursor = s.cursor) ∨
      ∃ r, t.response = some (.instruction r) ∧ t.cursor = s.cursor + r.decoded.consumed)

/-- No step changes the table, so every later lookup answers the same, nor the caller's inputs and memory (R21, R30,
R31, R40, R53, R86). The caller's inputs and memory, the pending requests and the answer as fields of State are
the model's choices (log entries 3 to 7), the verdict log entry 9. -/
def Obligations.NoStepWritesTableInputsOrMemory : Prop :=
  ∀ (s t : State), step s = .next t →
    t.opcodeRom = s.opcodeRom ∧ t.extModes = s.extModes ∧ t.construction = s.construction ∧
    t.stream = s.stream ∧ t.x = s.x ∧ t.y = s.y ∧ (∀ a : Word, memRead t.mem a = memRead s.mem a) ∧
    (∀ m mode, lookupOpcode t.rom m mode = lookupOpcode s.rom m mode) ∧
    (∀ b, lookupInstruction t.rom b = lookupInstruction s.rom b)

/-- The reset state meets the invariant (R34, R84, R260). The caller's inputs at reset are the model's choices (log
entries 3 to 7). -/
def Obligations.ResetSatisfiesInvariant : Prop :=
  State.reset.Inv

/-- Every step keeps the invariant (R51, R84, R100, R101, R120, R150, R234). The form of the memory is the model's
(log entry 5), as are the cursor and the answer (log entries 3 and 7). -/
def Obligations.StepKeepsInvariant : Prop :=
  ∀ s t : State, s.Inv → step s = .next t → t.Inv

/-- DuplicateTableEntry never arises during a request, and the one fault there is comes from construction (R84,
R234, R230). The list of pending requests and the answer held in State are the model's choices (log entries 6
and 7). The fault of construct is log entry 9. -/
def Obligations.NoRequestRaisesDuplicateTableEntry : Prop :=
  (∀ (s t : State) (e : Entry), step s = .next t → t.response ≠ some (.error (.duplicateTableEntry e))) ∧
  (∀ (s : State) (f : Fault), step s ≠ .fault f ∧ (∀ i : Instr, exec i s ≠ .fault f) ∧
    ∀ q : Request, servePort q s ≠ .fault f) ∧
  (∀ (ext : Bool) (L : List Entry) (f : Fault), construct ext L = .fault f → ∃ e ∈ L, f = .duplicateTableEntry e) ∧
  (∀ e : Entry, ∃ (ext : Bool) (L : List Entry), construct ext L = .fault (.duplicateTableEntry e))

/-- No output depends on an earlier output (R34, R260, R264). The list of pending requests and the answer held in
State are the model's choices (log entries 6 and 7). -/
def Obligations.AnswersDoNotDependOnHistory : Prop :=
  ∀ (s : State) (r : Option Response),
    step { s with response := r } = step s ∧
    (∀ i : Instr, exec i { s with response := r } = exec i s) ∧
    (∀ q : Request, servePort q { s with response := r } = servePort q s)

/-- A port request's answer does not depend on requests served before it (R53, R246, R264). The list of pending
requests and the answer held in State are the model's choices (log entries 6 and 7). -/
def Obligations.RequestsAreIndependent : Prop :=
  (∀ (s t : State) (q q' : Request), servePort q s = .next t →
    servePort q' t = servePort q' s ∧
    (∀ u : State, servePort q' s = .next u → ∃ v w : State, servePort q u = .next v ∧ servePort q' t = .next w ∧
      v.response = t.response ∧ w.response = u.response)) ∧
  (∀ (s t u : State) (i : Instr) (q : Request), exec i s = .next t → servePort q s = .next u →
    ∃ w : State, servePort q t = .next w ∧ w.response = u.response)

/-- The same request repeated returns the same answer (R232, R86). The step, its stream and cursor, and the answer
held in State are the model's choices (log entries 2, 3 and 7). -/
def Obligations.RepeatedErrorsRepeat : Prop :=
  (∀ (s t : State) (e : BlockError), s.Walking → step s = .next t → t.response = some (.error e) →
    step t = .next t) ∧
  (∀ (s t : State) (q : Request), servePort q s = .next t → servePort q t = .next t)

/-- Every walk stops at a first error, within one step per remaining byte and one more (R20, R61, R150, R153, R232,
95_test_vectors.md section 6). The step, its stream and cursor, and the answer held in State are the model's
choices (log entries 2, 3 and 7). -/
def Obligations.WalkReachesAnErrorAtTheEnd : Prop :=
  ∀ s : State, s.Walking →
    ∃ (k : Nat) (t : State) (e : BlockError), k ≤ s.stream.length - s.cursor + 1 ∧
      Host.Core.run Sys2Proof.core k s = .next t ∧ t.response = some (.error e) ∧ step t = .next t

/-- The next cursor is the cursor plus the bytes consumed: one, two or three (R20, R61, R62, R150). The step, its
stream and cursor, and the answer held in State are the model's choices (log entries 2, 3 and 7). -/
def Obligations.CursorMovesByBytesConsumed : Prop :=
  ∀ (s t : State) (r : InstructionReport), s.Walking → step s = .next t → t.response = some (.instruction r) →
    t.cursor = s.cursor + r.decoded.consumed ∧ r.decoded.consumed = 1 + r.decoded.mode.operandSize ∧
    1 ≤ r.decoded.consumed ∧ r.decoded.consumed ≤ 3

/-- A serving block answers every instruction and every walk step: it never stops (R231, R232, R248, R242). That
exec is this service, with the cursor moved, is the model's choice (log entries 1, 2 and 7). -/
def Obligations.ServingBlockAlwaysAnswersInstructions : Prop :=
  ∀ s : State, s.Serving → (∀ i : Instr, Runs (exec i s)) ∧ (s.pending = [] → Runs (step s))

/-- The addition and subtraction: every form completes with its encoding, decoding and address (R160, R203, R100,
R120, R150). That exec is this service, with the cursor moved, is the model's choice (log entries 1, 2 and 7). -/
def Obligations.ArithmeticInstructionsAreDelivered : Prop :=
  ∀ (s : State) (n lo hi : Byte), s.Standard →
    exec (.adcImm n) s = .next (s.delivers 0x69 .adc .immediate [n]) ∧
    exec (.adcZp n) s = .next (s.delivers 0x65 .adc .zeroPage [n]) ∧
    exec (.adcZpx n) s = .next (s.delivers 0x75 .adc .zeroPageX [n]) ∧
    exec (.adcAbs lo hi) s = .next (s.delivers 0x6D .adc .absolute [lo, hi]) ∧
    exec (.adcAbx lo hi) s = .next (s.delivers 0x7D .adc .absoluteX [lo, hi]) ∧
    exec (.adcAby lo hi) s = .next (s.delivers 0x79 .adc .absoluteY [lo, hi]) ∧
    exec (.adcIzx n) s = .next (s.delivers 0x61 .adc .indirectX [n]) ∧
    exec (.adcIzy n) s = .next (s.delivers 0x71 .adc .indirectY [n]) ∧
    exec (.sbcImm n) s = .next (s.delivers 0xE9 .sbc .immediate [n]) ∧
    exec (.sbcZp n) s = .next (s.delivers 0xE5 .sbc .zeroPage [n]) ∧
    exec (.sbcZpx n) s = .next (s.delivers 0xF5 .sbc .zeroPageX [n]) ∧
    exec (.sbcAbs lo hi) s = .next (s.delivers 0xED .sbc .absolute [lo, hi]) ∧
    exec (.sbcAbx lo hi) s = .next (s.delivers 0xFD .sbc .absoluteX [lo, hi]) ∧
    exec (.sbcAby lo hi) s = .next (s.delivers 0xF9 .sbc .absoluteY [lo, hi]) ∧
    exec (.sbcIzx n) s = .next (s.delivers 0xE1 .sbc .indirectX [n]) ∧
    exec (.sbcIzy n) s = .next (s.delivers 0xF1 .sbc .indirectY [n])

/-- The logic: every form completes with its encoding, decoding and address (R161, R166, R183, R194, R100, R120,
R150). That exec is this service, with the cursor moved, is the model's choice (log entries 1, 2 and 7). -/
def Obligations.LogicInstructionsAreDelivered : Prop :=
  ∀ (s : State) (n lo hi : Byte), s.Standard →
    exec (.andImm n) s = .next (s.delivers 0x29 .and .immediate [n]) ∧
    exec (.andZp n) s = .next (s.delivers 0x25 .and .zeroPage [n]) ∧
    exec (.andZpx n) s = .next (s.delivers 0x35 .and .zeroPageX [n]) ∧
    exec (.andAbs lo hi) s = .next (s.delivers 0x2D .and .absolute [lo, hi]) ∧
    exec (.andAbx lo hi) s = .next (s.delivers 0x3D .and .absoluteX [lo, hi]) ∧
    exec (.andAby lo hi) s = .next (s.delivers 0x39 .and .absoluteY [lo, hi]) ∧
    exec (.andIzx n) s = .next (s.delivers 0x21 .and .indirectX [n]) ∧
    exec (.andIzy n) s = .next (s.delivers 0x31 .and .indirectY [n]) ∧
    exec (.bitZp n) s = .next (s.delivers 0x24 .bit .zeroPage [n]) ∧
    exec (.bitAbs lo hi) s = .next (s.delivers 0x2C .bit .absolute [lo, hi]) ∧
    exec (.eorImm n) s = .next (s.delivers 0x49 .eor .immediate [n]) ∧
    exec (.eorZp n) s = .next (s.delivers 0x45 .eor .zeroPage [n]) ∧
    exec (.eorZpx n) s = .next (s.delivers 0x55 .eor .zeroPageX [n]) ∧
    exec (.eorAbs lo hi) s = .next (s.delivers 0x4D .eor .absolute [lo, hi]) ∧
    exec (.eorAbx lo hi) s = .next (s.delivers 0x5D .eor .absoluteX [lo, hi]) ∧
    exec (.eorAby lo hi) s = .next (s.delivers 0x59 .eor .absoluteY [lo, hi]) ∧
    exec (.eorIzx n) s = .next (s.delivers 0x41 .eor .indirectX [n]) ∧
    exec (.eorIzy n) s = .next (s.delivers 0x51 .eor .indirectY [n]) ∧
    exec (.oraImm n) s = .next (s.delivers 0x09 .ora .immediate [n]) ∧
    exec (.oraZp n) s = .next (s.delivers 0x05 .ora .zeroPage [n]) ∧
    exec (.oraZpx n) s = .next (s.delivers 0x15 .ora .zeroPageX [n]) ∧
    exec (.oraAbs lo hi) s = .next (s.delivers 0x0D .ora .absolute [lo, hi]) ∧
    exec (.oraAbx lo hi) s = .next (s.delivers 0x1D .ora .absoluteX [lo, hi]) ∧
    exec (.oraAby lo hi) s = .next (s.delivers 0x19 .ora .absoluteY [lo, hi]) ∧
    exec (.oraIzx n) s = .next (s.delivers 0x01 .ora .indirectX [n]) ∧
    exec (.oraIzy n) s = .next (s.delivers 0x11 .ora .indirectY [n])

/-- The shifts and rotates: every form completes with its encoding, decoding and address (R162, R192, R199, R200,
R100, R120, R150). That exec is this service, with the cursor moved, is the model's choice (log entries 1, 2 and
7). -/
def Obligations.ShiftInstructionsAreDelivered : Prop :=
  ∀ (s : State) (n lo hi : Byte), s.Standard →
    exec .aslAcc s = .next (s.delivers 0x0A .asl .accumulator []) ∧
    exec (.aslZp n) s = .next (s.delivers 0x06 .asl .zeroPage [n]) ∧
    exec (.aslZpx n) s = .next (s.delivers 0x16 .asl .zeroPageX [n]) ∧
    exec (.aslAbs lo hi) s = .next (s.delivers 0x0E .asl .absolute [lo, hi]) ∧
    exec (.aslAbx lo hi) s = .next (s.delivers 0x1E .asl .absoluteX [lo, hi]) ∧
    exec .lsrAcc s = .next (s.delivers 0x4A .lsr .accumulator []) ∧
    exec (.lsrZp n) s = .next (s.delivers 0x46 .lsr .zeroPage [n]) ∧
    exec (.lsrZpx n) s = .next (s.delivers 0x56 .lsr .zeroPageX [n]) ∧
    exec (.lsrAbs lo hi) s = .next (s.delivers 0x4E .lsr .absolute [lo, hi]) ∧
    exec (.lsrAbx lo hi) s = .next (s.delivers 0x5E .lsr .absoluteX [lo, hi]) ∧
    exec .rolAcc s = .next (s.delivers 0x2A .rol .accumulator []) ∧
    exec (.rolZp n) s = .next (s.delivers 0x26 .rol .zeroPage [n]) ∧
    exec (.rolZpx n) s = .next (s.delivers 0x36 .rol .zeroPageX [n]) ∧
    exec (.rolAbs lo hi) s = .next (s.delivers 0x2E .rol .absolute [lo, hi]) ∧
    exec (.rolAbx lo hi) s = .next (s.delivers 0x3E .rol .absoluteX [lo, hi]) ∧
    exec .rorAcc s = .next (s.delivers 0x6A .ror .accumulator []) ∧
    exec (.rorZp n) s = .next (s.delivers 0x66 .ror .zeroPage [n]) ∧
    exec (.rorZpx n) s = .next (s.delivers 0x76 .ror .zeroPageX [n]) ∧
    exec (.rorAbs lo hi) s = .next (s.delivers 0x6E .ror .absolute [lo, hi]) ∧
    exec (.rorAbx lo hi) s = .next (s.delivers 0x7E .ror .absoluteX [lo, hi])

/-- The comparisons: every form completes with its encoding, decoding and address (R177, R178, R179, R100, R120,
R150). That exec is this service, with the cursor moved, is the model's choice (log entries 1, 2 and 7). -/
def Obligations.ComparisonsAreDelivered : Prop :=
  ∀ (s : State) (n lo hi : Byte), s.Standard →
    exec (.cmpImm n) s = .next (s.delivers 0xC9 .cmp .immediate [n]) ∧
    exec (.cmpZp n) s = .next (s.delivers 0xC5 .cmp .zeroPage [n]) ∧
    exec (.cmpZpx n) s = .next (s.delivers 0xD5 .cmp .zeroPageX [n]) ∧
    exec (.cmpAbs lo hi) s = .next (s.delivers 0xCD .cmp .absolute [lo, hi]) ∧
    exec (.cmpAbx lo hi) s = .next (s.delivers 0xDD .cmp .absoluteX [lo, hi]) ∧
    exec (.cmpAby lo hi) s = .next (s.delivers 0xD9 .cmp .absoluteY [lo, hi]) ∧
    exec (.cmpIzx n) s = .next (s.delivers 0xC1 .cmp .indirectX [n]) ∧
    exec (.cmpIzy n) s = .next (s.delivers 0xD1 .cmp .indirectY [n]) ∧
    exec (.cpxImm n) s = .next (s.delivers 0xE0 .cpx .immediate [n]) ∧
    exec (.cpxZp n) s = .next (s.delivers 0xE4 .cpx .zeroPage [n]) ∧
    exec (.cpxAbs lo hi) s = .next (s.delivers 0xEC .cpx .absolute [lo, hi]) ∧
    exec (.cpyImm n) s = .next (s.delivers 0xC0 .cpy .immediate [n]) ∧
    exec (.cpyZp n) s = .next (s.delivers 0xC4 .cpy .zeroPage [n]) ∧
    exec (.cpyAbs lo hi) s = .next (s.delivers 0xCC .cpy .absolute [lo, hi])

/-- The increments and decrements: every form completes with its encoding, decoding and address (R180, R181, R182,
R184, R185, R186, R100, R120, R150). That exec is this service, with the cursor moved, is the model's choice
(log entries 1, 2 and 7). -/
def Obligations.IncrementsAndDecrementsAreDelivered : Prop :=
  ∀ (s : State) (n lo hi : Byte), s.Standard →
    exec (.decZp n) s = .next (s.delivers 0xC6 .dec .zeroPage [n]) ∧
    exec (.decZpx n) s = .next (s.delivers 0xD6 .dec .zeroPageX [n]) ∧
    exec (.decAbs lo hi) s = .next (s.delivers 0xCE .dec .absolute [lo, hi]) ∧
    exec (.decAbx lo hi) s = .next (s.delivers 0xDE .dec .absoluteX [lo, hi]) ∧
    exec .dexImp s = .next (s.delivers 0xCA .dex .implied []) ∧
    exec .deyImp s = .next (s.delivers 0x88 .dey .implied []) ∧
    exec (.incZp n) s = .next (s.delivers 0xE6 .inc .zeroPage [n]) ∧
    exec (.incZpx n) s = .next (s.delivers 0xF6 .inc .zeroPageX [n]) ∧
    exec (.incAbs lo hi) s = .next (s.delivers 0xEE .inc .absolute [lo, hi]) ∧
    exec (.incAbx lo hi) s = .next (s.delivers 0xFE .inc .absoluteX [lo, hi]) ∧
    exec .inxImp s = .next (s.delivers 0xE8 .inx .implied []) ∧
    exec .inyImp s = .next (s.delivers 0xC8 .iny .implied [])

/-- The loads: every form completes with its encoding, decoding and address (R189, R190, R191, R100, R120, R150).
That exec is this service, with the cursor moved, is the model's choice (log entries 1, 2 and 7). -/
def Obligations.LoadsAreDelivered : Prop :=
  ∀ (s : State) (n lo hi : Byte), s.Standard →
    exec (.ldaImm n) s = .next (s.delivers 0xA9 .lda .immediate [n]) ∧
    exec (.ldaZp n) s = .next (s.delivers 0xA5 .lda .zeroPage [n]) ∧
    exec (.ldaZpx n) s = .next (s.delivers 0xB5 .lda .zeroPageX [n]) ∧
    exec (.ldaAbs lo hi) s = .next (s.delivers 0xAD .lda .absolute [lo, hi]) ∧
    exec (.ldaAbx lo hi) s = .next (s.delivers 0xBD .lda .absoluteX [lo, hi]) ∧
    exec (.ldaAby lo hi) s = .next (s.delivers 0xB9 .lda .absoluteY [lo, hi]) ∧
    exec (.ldaIzx n) s = .next (s.delivers 0xA1 .lda .indirectX [n]) ∧
    exec (.ldaIzy n) s = .next (s.delivers 0xB1 .lda .indirectY [n]) ∧
    exec (.ldxImm n) s = .next (s.delivers 0xA2 .ldx .immediate [n]) ∧
    exec (.ldxZp n) s = .next (s.delivers 0xA6 .ldx .zeroPage [n]) ∧
    exec (.ldxZpy n) s = .next (s.delivers 0xB6 .ldx .zeroPageY [n]) ∧
    exec (.ldxAbs lo hi) s = .next (s.delivers 0xAE .ldx .absolute [lo, hi]) ∧
    exec (.ldxAby lo hi) s = .next (s.delivers 0xBE .ldx .absoluteY [lo, hi]) ∧
    exec (.ldyImm n) s = .next (s.delivers 0xA0 .ldy .immediate [n]) ∧
    exec (.ldyZp n) s = .next (s.delivers 0xA4 .ldy .zeroPage [n]) ∧
    exec (.ldyZpx n) s = .next (s.delivers 0xB4 .ldy .zeroPageX [n]) ∧
    exec (.ldyAbs lo hi) s = .next (s.delivers 0xAC .ldy .absolute [lo, hi]) ∧
    exec (.ldyAbx lo hi) s = .next (s.delivers 0xBC .ldy .absoluteX [lo, hi])

/-- The stores: every form completes with its encoding, decoding and address (R207, R208, R209, R100, R120, R150).
That exec is this service, with the cursor moved, is the model's choice (log entries 1, 2 and 7). -/
def Obligations.StoresAreDelivered : Prop :=
  ∀ (s : State) (n lo hi : Byte), s.Standard →
    exec (.staZp n) s = .next (s.delivers 0x85 .sta .zeroPage [n]) ∧
    exec (.staZpx n) s = .next (s.delivers 0x95 .sta .zeroPageX [n]) ∧
    exec (.staAbs lo hi) s = .next (s.delivers 0x8D .sta .absolute [lo, hi]) ∧
    exec (.staAbx lo hi) s = .next (s.delivers 0x9D .sta .absoluteX [lo, hi]) ∧
    exec (.staAby lo hi) s = .next (s.delivers 0x99 .sta .absoluteY [lo, hi]) ∧
    exec (.staIzx n) s = .next (s.delivers 0x81 .sta .indirectX [n]) ∧
    exec (.staIzy n) s = .next (s.delivers 0x91 .sta .indirectY [n]) ∧
    exec (.stxZp n) s = .next (s.delivers 0x86 .stx .zeroPage [n]) ∧
    exec (.stxZpy n) s = .next (s.delivers 0x96 .stx .zeroPageY [n]) ∧
    exec (.stxAbs lo hi) s = .next (s.delivers 0x8E .stx .absolute [lo, hi]) ∧
    exec (.styZp n) s = .next (s.delivers 0x84 .sty .zeroPage [n]) ∧
    exec (.styZpx n) s = .next (s.delivers 0x94 .sty .zeroPageX [n]) ∧
    exec (.styAbs lo hi) s = .next (s.delivers 0x8C .sty .absolute [lo, hi])

/-- The register transfers: every form completes with its encoding, decoding and address (R210, R211, R212, R213,
R214, R215, R100, R120, R150). That exec is this service, with the cursor moved, is the model's choice (log
entries 1, 2 and 7). -/
def Obligations.TransfersAreDelivered : Prop :=
  ∀ (s : State), s.Standard →
    exec .taxImp s = .next (s.delivers 0xAA .tax .implied []) ∧
    exec .tayImp s = .next (s.delivers 0xA8 .tay .implied []) ∧
    exec .tsxImp s = .next (s.delivers 0xBA .tsx .implied []) ∧
    exec .txaImp s = .next (s.delivers 0x8A .txa .implied []) ∧
    exec .txsImp s = .next (s.delivers 0x9A .txs .implied []) ∧
    exec .tyaImp s = .next (s.delivers 0x98 .tya .implied [])

/-- The stack instructions: every form completes with its encoding, decoding and address (R195, R196, R197, R198,
R100, R120, R150). That exec is this service, with the cursor moved, is the model's choice (log entries 1, 2 and
7). -/
def Obligations.StackInstructionsAreDelivered : Prop :=
  ∀ (s : State), s.Standard →
    exec .phaImp s = .next (s.delivers 0x48 .pha .implied []) ∧
    exec .phpImp s = .next (s.delivers 0x08 .php .implied []) ∧
    exec .plaImp s = .next (s.delivers 0x68 .pla .implied []) ∧
    exec .plpImp s = .next (s.delivers 0x28 .plp .implied [])

/-- The status-flag instructions: every form completes with its encoding, decoding and address (R173, R174, R175,
R176, R204, R205, R206, R100, R120, R150). That exec is this service, with the cursor moved, is the model's
choice (log entries 1, 2 and 7). -/
def Obligations.StatusFlagInstructionsAreDelivered : Prop :=
  ∀ (s : State), s.Standard →
    exec .clcImp s = .next (s.delivers 0x18 .clc .implied []) ∧
    exec .cldImp s = .next (s.delivers 0xD8 .cld .implied []) ∧
    exec .cliImp s = .next (s.delivers 0x58 .cli .implied []) ∧
    exec .clvImp s = .next (s.delivers 0xB8 .clv .implied []) ∧
    exec .secImp s = .next (s.delivers 0x38 .sec .implied []) ∧
    exec .sedImp s = .next (s.delivers 0xF8 .sed .implied []) ∧
    exec .seiImp s = .next (s.delivers 0x78 .sei .implied [])

/-- With EXT_MODES, every branch completes with its encoding, decoding and answer (R163, R164, R165, R167, R168,
R169, R171, R172, R100, R120, R150). That exec is this service, with the cursor moved, is the model's choice
(log entries 1, 2 and 7). -/
def Obligations.BranchesAreDeliveredWithExtModes : Prop :=
  ∀ (s : State) (n : Byte), s.Standard →
    s.extModes = true →
      exec (.bccRel n) s = .next (s.delivers 0x90 .bcc .relative [n]) ∧
      exec (.bcsRel n) s = .next (s.delivers 0xB0 .bcs .relative [n]) ∧
      exec (.beqRel n) s = .next (s.delivers 0xF0 .beq .relative [n]) ∧
      exec (.bmiRel n) s = .next (s.delivers 0x30 .bmi .relative [n]) ∧
      exec (.bneRel n) s = .next (s.delivers 0xD0 .bne .relative [n]) ∧
      exec (.bplRel n) s = .next (s.delivers 0x10 .bpl .relative [n]) ∧
      exec (.bvcRel n) s = .next (s.delivers 0x50 .bvc .relative [n]) ∧
      exec (.bvsRel n) s = .next (s.delivers 0x70 .bvs .relative [n])

/-- The jumps, returns and the rest: every form completes with its encoding, decoding and address (R170, R187, R188,
R193, R201, R202, R100, R120, R150). That exec is this service, with the cursor moved, is the model's choice
(log entries 1, 2 and 7). -/
def Obligations.JumpsReturnsAndNopAreDelivered : Prop :=
  ∀ (s : State) (lo hi : Byte), s.Standard →
    exec .brkImp s = .next (s.delivers 0x00 .brk .implied []) ∧
    exec (.jmpAbs lo hi) s = .next (s.delivers 0x4C .jmp .absolute [lo, hi]) ∧
    exec (.jsrAbs lo hi) s = .next (s.delivers 0x20 .jsr .absolute [lo, hi]) ∧
    exec .nopImp s = .next (s.delivers 0xEA .nop .implied []) ∧
    exec .rtiImp s = .next (s.delivers 0x40 .rti .implied []) ∧
    exec .rtsImp s = .next (s.delivers 0x60 .rts .implied []) ∧
    (s.extModes = true →
      exec (.jmpInd lo hi) s = .next (s.delivers 0x6C .jmp .indirect [lo, hi]))

/-- Without EXT_MODES the nine extension forms are answered by errors, and their bytes are illegal (R12, R69, R80,
R81, R187, 95_test_vectors.md T7, E13, E16, P3a). That exec answers the lookup's error is log entry 12, the walk
step log entry 2. -/
def Obligations.ExtensionFormsWithoutExtModes : Prop :=
  (∀ (s : State) (n lo hi : Byte), s.Standard → s.extModes = false →
    exec (.bccRel n) s = .next (s.answersError (.unknownMnemonic (Mnemonic.name .bcc))) ∧
    exec (.bcsRel n) s = .next (s.answersError (.unknownMnemonic (Mnemonic.name .bcs))) ∧
    exec (.beqRel n) s = .next (s.answersError (.unknownMnemonic (Mnemonic.name .beq))) ∧
    exec (.bmiRel n) s = .next (s.answersError (.unknownMnemonic (Mnemonic.name .bmi))) ∧
    exec (.bneRel n) s = .next (s.answersError (.unknownMnemonic (Mnemonic.name .bne))) ∧
    exec (.bplRel n) s = .next (s.answersError (.unknownMnemonic (Mnemonic.name .bpl))) ∧
    exec (.bvcRel n) s = .next (s.answersError (.unknownMnemonic (Mnemonic.name .bvc))) ∧
    exec (.bvsRel n) s = .next (s.answersError (.unknownMnemonic (Mnemonic.name .bvs))) ∧
    exec (.jmpInd lo hi) s = .next (s.answersError (.unsupportedAddressingMode (Mnemonic.name .jmp) .indirect))) ∧
  (∀ (s : State) (e : Entry), s.Standard → s.extModes = false → s.pending = [] → e ∈ extensionRows →
    s.stream[s.cursor]? = some e.opcode → step s = .next (s.answersError (.illegalOpcode e.opcode)))

/-- A pending port request is served first, with the result or error of its unit (R24, R25, R26, R27, R28, R29, R87,
R231). The list of pending requests and the answer held in State are the model's choices (log entries 6 and 7). -/
def Obligations.PortsAnswerTheirUnits : Prop :=
  ∀ (s : State) (rest : List Request), s.Serving →
    (∀ m c mode, Mode.ofCode s.extModes c = some mode → s.pending = .lookupOpcode m c :: rest →
      step s = .next { s with
        pending := rest, response := some (.ofResult .opcode (lookupOpcode s.rom m mode)) }) ∧
    (∀ b, s.pending = .lookupInstruction b :: rest →
      step s = .next { s with
        pending := rest, response := some (.ofResult (fun e => .entry e.1 e.2) (lookupInstruction s.rom b)) }) ∧
    (∀ m c ops mode, Mode.ofCode s.extModes c = some mode → s.pending = .encode m c ops :: rest →
      step s = .next { s with
        pending := rest, response := some (.ofResult .encoded (encode s.rom m mode ops)) }) ∧
    (∀ bytes cursor, s.pending = .decode bytes cursor :: rest →
      step s = .next { s with
        pending := rest, response := some (.ofResult .decoded (decode s.rom bytes cursor)) }) ∧
    (∀ c operand x y mode, Mode.ofCode s.extModes c = some mode → s.pending = .resolveAddress c operand x y :: rest →
      step s = .next { s with
        pending := rest
        response := some (.ofResult (fun a => .address a (zpReads mode operand x))
          (resolveAddress mode operand x y s.zpRead)) }) ∧
    (∀ i m, Mnemonic.ofIndex i = some m → s.pending = .mnemonicName i :: rest →
      step s = .next { s with pending := rest, response := some (.name (mnemonicName m)) })

/-- A port request with a raw code that names nothing is refused (R22, R87, 92_eei_decisions.md D16,
95_test_vectors.md M1 to M3). The list of pending requests is the model's choice (log entry 6), the refusal is
that of log entry 10. -/
def Obligations.RawCodesNamingNothingAreRefused : Prop :=
  ∀ (s : State) (rest : List Request), s.Serving →
    (∀ c : BitVec 4, 13 ≤ c.toNat ∨ (s.extModes = false ∧ 11 ≤ c.toNat) →
      (∀ m, s.pending = .lookupOpcode m c :: rest → step s = .refused (.unnamedModeCode c)) ∧
      (∀ m ops, s.pending = .encode m c ops :: rest → step s = .refused (.unnamedModeCode c)) ∧
      (∀ operand x y, s.pending = .resolveAddress c operand x y :: rest → step s = .refused (.unnamedModeCode c))) ∧
    (∀ i : BitVec 6, 56 ≤ i.toNat → s.pending = .mnemonicName i :: rest →
      step s = .refused (.unnamedMnemonicIndex i))

/-- A word of each family, written out from its rule, decodes to its instruction (R60, R66, 44_instructions.md). The
numbering of decodeTableWord, with the rows of EXT_MODES, is log entry 2. -/
def Obligations.WordsFromTheRulesDecode : Prop :=
  decodeTableWord 16 0x0169 = some (.adcImm 0x01) ∧
  decodeTableWord 16 0x1021 = some (.andIzx 0x10) ∧
  decodeTableWord 8 0x0A = some .aslAcc ∧
  decodeTableWord 24 0x1234CC = some (.cpyAbs 0x34 0x12) ∧
  decodeTableWord 8 0xCA = some .dexImp ∧
  decodeTableWord 24 0x20FFBE = some (.ldxAby 0xFF 0x20) ∧
  decodeTableWord 16 0x1096 = some (.stxZpy 0x10) ∧
  decodeTableWord 8 0x9A = some .txsImp ∧
  decodeTableWord 8 0x48 = some .phaImp ∧
  decodeTableWord 8 0x78 = some .seiImp ∧
  decodeTableWord 16 0xFCD0 = some (.bneRel 0xFC) ∧
  decodeTableWord 24 0x03006C = some (.jmpInd 0x00 0x03) ∧
  decodeTableWord 8 0x00 = some .brkImp

/-- The reset state: the default table of the spec, and the caller's inputs at the values the model chooses (R12,
R34, R260, R30). The caller's inputs at reset are the model's choices (log entries 3 to 7). -/
def Obligations.ResetIsTheDefaultBlock : Prop :=
  State.reset.extModes = false ∧ State.reset.opcodeRom = opcodeTable ∧ State.reset.construction = .passed ∧
  State.reset.rom.length = 142 ∧ State.reset.stream = [] ∧ State.reset.cursor = 0 ∧ State.reset.x = 0 ∧
  State.reset.y = 0 ∧ (∀ a : Word, memRead State.reset.mem a = 0x00) ∧ State.reset.pending = [] ∧
  State.reset.response = none

/-- The caller's memory reads the byte last written to an address, and writes keep its form (R40, R41). The
canonical form is the model's (log entry 5). -/
def Obligations.CallerMemoryReadsWhatWasWritten : Prop :=
  ∀ (s : State) (a : Word) (v : Byte), memWf s.mem = true →
    memWf (memWrite s.mem a v) = true ∧
    (∀ b : Word, memRead (memWrite s.mem a v) b = if b = a then v else memRead s.mem b) ∧
    (∀ p : Byte, State.zpRead { s with mem := memWrite s.mem a v } p =
      if a.toNat = p.toNat then v else s.zpRead p)

/-- The errors have the codes 1 to 7 of the spec (R230, 92_eei_decisions.md D11). -/
def Obligations.EveryErrorHasItsCode : Prop :=
  ∀ (m : Text) (mode : Mode) (b : Byte) (j k : Nat) (e : Entry),
    (BlockError.unknownMnemonic m).code = 1 ∧ (BlockError.unsupportedAddressingMode m mode).code = 2 ∧
    (BlockError.illegalOpcode b).code = 3 ∧ (BlockError.operandSizeMismatch j k).code = 4 ∧
    (BlockError.truncatedInstruction j k).code = 5 ∧ (BlockError.duplicateTableEntry e).code = 6 ∧
    (BlockError.noEffectiveAddress mode).code = 7
end

