-- ==== Sys2Proof/Laws/State.lean ====
section
/-! SUPPORT. The fields of an updated state, one lemma per field per update, and what the accessors `rom` and `zpRead`
see of an update. -/

namespace Sys2Proof.Machine

@[simp] theorem State.answer_opcodeRom (s : State) (r : Response) : (s.answer r).opcodeRom = s.opcodeRom := rfl
@[simp] theorem State.answer_extModes (s : State) (r : Response) : (s.answer r).extModes = s.extModes := rfl
@[simp] theorem State.answer_construction (s : State) (r : Response) : (s.answer r).construction = s.construction := rfl
@[simp] theorem State.answer_stream (s : State) (r : Response) : (s.answer r).stream = s.stream := rfl
@[simp] theorem State.answer_cursor (s : State) (r : Response) : (s.answer r).cursor = s.cursor := rfl
@[simp] theorem State.answer_x (s : State) (r : Response) : (s.answer r).x = s.x := rfl
@[simp] theorem State.answer_y (s : State) (r : Response) : (s.answer r).y = s.y := rfl
@[simp] theorem State.answer_mem (s : State) (r : Response) : (s.answer r).mem = s.mem := rfl
@[simp] theorem State.answer_pending (s : State) (r : Response) : (s.answer r).pending = s.pending := rfl
@[simp] theorem State.answer_response (s : State) (r : Response) : (s.answer r).response = some r := rfl

@[simp] theorem State.advance_opcodeRom (s : State) (n : Nat) : (s.advance n).opcodeRom = s.opcodeRom := rfl
@[simp] theorem State.advance_extModes (s : State) (n : Nat) : (s.advance n).extModes = s.extModes := rfl
@[simp] theorem State.advance_construction (s : State) (n : Nat) : (s.advance n).construction = s.construction := rfl
@[simp] theorem State.advance_stream (s : State) (n : Nat) : (s.advance n).stream = s.stream := rfl
@[simp] theorem State.advance_cursor (s : State) (n : Nat) : (s.advance n).cursor = s.cursor + n := rfl
@[simp] theorem State.advance_x (s : State) (n : Nat) : (s.advance n).x = s.x := rfl
@[simp] theorem State.advance_y (s : State) (n : Nat) : (s.advance n).y = s.y := rfl
@[simp] theorem State.advance_mem (s : State) (n : Nat) : (s.advance n).mem = s.mem := rfl
@[simp] theorem State.advance_pending (s : State) (n : Nat) : (s.advance n).pending = s.pending := rfl
@[simp] theorem State.advance_response (s : State) (n : Nat) : (s.advance n).response = s.response := rfl

@[simp] theorem State.popRequest_opcodeRom (s : State) : (s.popRequest).opcodeRom = s.opcodeRom := rfl
@[simp] theorem State.popRequest_extModes (s : State) : (s.popRequest).extModes = s.extModes := rfl
@[simp] theorem State.popRequest_construction (s : State) : (s.popRequest).construction = s.construction := rfl
@[simp] theorem State.popRequest_stream (s : State) : (s.popRequest).stream = s.stream := rfl
@[simp] theorem State.popRequest_cursor (s : State) : (s.popRequest).cursor = s.cursor := rfl
@[simp] theorem State.popRequest_x (s : State) : (s.popRequest).x = s.x := rfl
@[simp] theorem State.popRequest_y (s : State) : (s.popRequest).y = s.y := rfl
@[simp] theorem State.popRequest_mem (s : State) : (s.popRequest).mem = s.mem := rfl
@[simp] theorem State.popRequest_pending (s : State) : (s.popRequest).pending = s.pending.tail := rfl
@[simp] theorem State.popRequest_response (s : State) : (s.popRequest).response = s.response := rfl

@[simp] theorem State.placeInstruction_opcodeRom (s : State) (bytes : Bytes) : (s.placeInstruction bytes).opcodeRom = s.opcodeRom := rfl
@[simp] theorem State.placeInstruction_construction (s : State) (bytes : Bytes) : (s.placeInstruction bytes).construction = s.construction := rfl
@[simp] theorem State.placeInstruction_stream (s : State) (bytes : Bytes) : (s.placeInstruction bytes).stream = placeBytes s.stream s.cursor bytes := rfl
@[simp] theorem State.placeInstruction_cursor (s : State) (bytes : Bytes) : (s.placeInstruction bytes).cursor = s.cursor := rfl
@[simp] theorem State.placeInstruction_x (s : State) (bytes : Bytes) : (s.placeInstruction bytes).x = s.x := rfl
@[simp] theorem State.placeInstruction_y (s : State) (bytes : Bytes) : (s.placeInstruction bytes).y = s.y := rfl
@[simp] theorem State.placeInstruction_mem (s : State) (bytes : Bytes) : (s.placeInstruction bytes).mem = s.mem := rfl
@[simp] theorem State.placeInstruction_pending (s : State) (bytes : Bytes) : (s.placeInstruction bytes).pending = [] := rfl
@[simp] theorem State.placeInstruction_response (s : State) (bytes : Bytes) : (s.placeInstruction bytes).response = s.response := rfl

@[simp] theorem State.answer_rom (s : State) (r : Response) : (s.answer r).rom = s.rom := rfl
@[simp] theorem State.answer_zpRead (s : State) (r : Response) : (s.answer r).zpRead = s.zpRead := rfl
@[simp] theorem State.advance_rom (s : State) (n : Nat) : (s.advance n).rom = s.rom := rfl
@[simp] theorem State.advance_zpRead (s : State) (n : Nat) : (s.advance n).zpRead = s.zpRead := rfl
@[simp] theorem State.popRequest_rom (s : State) : (s.popRequest).rom = s.rom := rfl
@[simp] theorem State.popRequest_zpRead (s : State) : (s.popRequest).zpRead = s.zpRead := rfl
@[simp] theorem State.placeInstruction_zpRead (s : State) (bytes : Bytes) :
    (s.placeInstruction bytes).zpRead = s.zpRead := rfl

/-- A later answer replaces an earlier one. -/
@[simp] theorem State.answer_answer (s : State) (r r' : Response) : (s.answer r).answer r' = s.answer r' := rfl

/-- The table of the block at reset. -/
theorem State.reset_rom : State.reset.rom = romFor false := rfl

/-- The table of a standard block. -/
theorem State.Standard.rom_eq {s : State} (h : s.Standard) : s.rom = romFor s.extModes := by
  simp only [State.rom, romFor, h.2]

end Sys2Proof.Machine
end

