-- ==== Sys2Proof/Laws/Memory.lean ====
section
/-! SUPPORT. The caller's memory: reading after writing, and the canonical form that every write keeps. -/

namespace Sys2Proof.Machine

theorem cellsWf_cons {lo k : Nat} {v : Byte} {m : List Host.Cell} :
    cellsWf lo ((k, v) :: m) = true ↔ lo ≤ k ∧ k < 65536 ∧ v ≠ memDefault ∧ cellsWf (k + 1) m = true := by
  simp [cellsWf, and_assoc]

theorem cellsWf_mono {lo lo' : Nat} {m : List Host.Cell} (h : cellsWf lo m = true) (hl : lo' ≤ lo) :
    cellsWf lo' m = true := by
  cases m with
  | nil => rfl
  | cons c m =>
    obtain ⟨k, v⟩ := c
    rw [cellsWf_cons] at h ⊢
    exact ⟨hl.trans h.1, h.2⟩

/-- A write keeps the canonical form of the cells above any key it does not lie below. -/
theorem cellWrite_wf {lo a : Nat} (v : Byte) {m : List Host.Cell} (hm : cellsWf lo m = true) (hl : lo ≤ a)
    (ha : a < 65536) : cellsWf lo (cellWrite m a v) = true := by
  induction m generalizing lo with
  | nil =>
    by_cases hv : v = memDefault
    · simp [cellWrite, hv, cellsWf]
    · simp [cellWrite, hv, cellsWf, hl, ha]
  | cons c m ih =>
    obtain ⟨k, w⟩ := c
    obtain ⟨h1, h2, h3, h4⟩ := cellsWf_cons.mp hm
    by_cases hk : k < a
    · simp only [cellWrite, hk, if_true]
      exact cellsWf_cons.mpr ⟨h1, h2, h3, ih h4 hk⟩
    · by_cases he : k = a
      · subst he
        by_cases hv : v = memDefault
        · simpa [cellWrite, hv] using cellsWf_mono h4 (by omega)
        · simpa [cellWrite, hv, cellsWf_cons] using ⟨hl, ha, h4⟩
      · by_cases hv : v = memDefault
        · simpa [cellWrite, hk, he, hv] using hm
        · simp only [cellWrite, hk, he, hv, if_false]
          exact cellsWf_cons.mpr ⟨hl, ha, hv, cellsWf_cons.mpr ⟨by omega, h2, h3, h4⟩⟩

/-- A key below every cell reads as the default. -/
theorem cellRead_below {lo a : Nat} {m : List Host.Cell} (hm : cellsWf lo m = true) (ha : a < lo) :
    cellRead m a = memDefault := by
  induction m generalizing lo with
  | nil => rfl
  | cons c m ih =>
    obtain ⟨k, w⟩ := c
    obtain ⟨h1, -, -, h4⟩ := cellsWf_cons.mp hm
    simp only [cellRead, if_neg (show ¬ k = a by omega)]
    exact ih h4 (by omega)

/-- The byte at a key after a write. -/
theorem cellRead_cellWrite {lo : Nat} {m : List Host.Cell} (hm : cellsWf lo m = true) (a b : Nat) (v : Byte) :
    cellRead (cellWrite m a v) b = if a = b then v else cellRead m b := by
  induction m generalizing lo with
  | nil =>
    by_cases hv : v = memDefault
    · simp [cellWrite, hv, cellRead]
    · simp [cellWrite, hv, cellRead]
  | cons c m ih =>
    obtain ⟨k, w⟩ := c
    obtain ⟨-, -, -, h4⟩ := cellsWf_cons.mp hm
    by_cases hk : k < a
    · simp only [cellWrite, hk, if_true, cellRead, ih h4]
      by_cases hb : k = b
      · simp [hb, show ¬ a = b by omega]
      · simp [hb]
    · by_cases he : k = a
      · subst he
        by_cases hv : v = memDefault
        · subst hv
          by_cases hb : k = b
          · subst hb
            simp [cellWrite, cellRead_below h4 (Nat.lt_succ_self k)]
          · simp [cellWrite, cellRead, hb]
        · by_cases hb : k = b <;> simp [cellWrite, hv, cellRead, hb]
      · by_cases hv : v = memDefault
        · subst hv
          by_cases hb : a = b
          · subst hb
            have := cellRead_below h4 (show a < k + 1 by omega)
            simp [cellWrite, hk, he, cellRead, this]
          · simp [cellWrite, hk, he, cellRead, hb]
        · simp [cellWrite, hk, he, hv, cellRead]

@[simp] theorem memWf_nil : memWf [] = true := rfl

/-- A caller's write keeps the memory canonical. -/
theorem memWrite_wf (a : Word) (v : Byte) {m : List Host.Cell} (hm : memWf m = true) : memWf (memWrite m a v) = true :=
  cellWrite_wf v hm (Nat.zero_le _) a.isLt

/-- An unwritten memory reads as the default everywhere. -/
@[simp] theorem memRead_nil (a : Word) : memRead [] a = memDefault := rfl

end Sys2Proof.Machine
end

