-- ==== Sys2Proof/Laws/Table.lean ====
section
/-! SUPPORT. The Instruction Table: what the construction check decides (R84), and one spec lemma per lookup (R80 to
R82). -/

namespace Sys2Proof

/-! ### Names and codes -/

theorem Mnemonic.mem_all (m : Mnemonic) : m ∈ Mnemonic.all := by cases m <;> decide

theorem Mode.mem_all (mode : Mode) : mode ∈ Mode.all := by cases mode <;> decide

/-- The index of a name is the index of the mnemonic, so the name determines it (R23). -/
theorem Mnemonic.name_injective {m n : Mnemonic} (h : m.name = n.name) : m = n := by
  have key : ∀ k : Mnemonic, Mnemonic.all.find? (fun j => j.name == k.name) = some k := by
    intro k; cases k <;> decide
  have hm := key m
  rw [h, key n] at hm
  exact (Option.some.inj hm).symm

@[simp] theorem Mnemonic.name_eq_iff {m n : Mnemonic} : m.name = n.name ↔ m = n :=
  ⟨Mnemonic.name_injective, fun h => h ▸ rfl⟩

@[simp] theorem Mnemonic.ofIndex_index (m : Mnemonic) : Mnemonic.ofIndex m.index = some m := by cases m <;> decide

@[simp] theorem Mode.ofCode_code (mode : Mode) : Mode.ofCode true mode.code = some mode := by cases mode <;> decide

/-! ### The table under EXT_MODES (R12, R30) -/

theorem mem_tableFor {ext : Bool} {L : List Entry} {e : Entry} :
    e ∈ tableFor ext L ↔ e ∈ L ∧ (ext = true ∨ e.mode.isExt = false) := by
  simp [tableFor]

@[simp] theorem tableFor_true (L : List Entry) : tableFor true L = L := by simp [tableFor]

namespace Machine

/-- A list passes the check exactly when its pairs, and its bytes, are new and pairwise distinct (R84). -/
theorem firstDuplicate_eq_none {L : List Entry} {ps : List (Mnemonic × Mode)} {bs : List Byte} :
    firstDuplicate ps bs L = none ↔
      (∀ e ∈ L, (e.mnemonic, e.mode) ∉ ps ∧ e.opcode ∉ bs) ∧
      L.Pairwise (fun e f => (e.mnemonic, e.mode) ≠ (f.mnemonic, f.mode) ∧ e.opcode ≠ f.opcode) := by
  induction L generalizing ps bs with
  | nil => simp [firstDuplicate]
  | cons e L ih =>
    simp only [firstDuplicate]
    split
    · next h => exact iff_of_false (by simp) (fun hc => by have := hc.1 e (by simp); tauto)
    · next h =>
      rw [ih, List.pairwise_cons]
      simp only [List.mem_cons, forall_eq_or_imp, not_or]
      constructor
      · rintro ⟨h1, h2⟩
        refine ⟨⟨by tauto, fun f hf => ⟨(h1 f hf).1.2, (h1 f hf).2.2⟩⟩, fun f hf => ⟨?_, ?_⟩, h2⟩
        · exact fun hc => (h1 f hf).1.1 hc.symm
        · exact fun hc => (h1 f hf).2.1 hc.symm
      · rintro ⟨⟨-, h1⟩, h2, h3⟩
        exact ⟨fun f hf => ⟨⟨fun hc => (h2 f hf).1 hc.symm, (h1 f hf).1⟩, ⟨fun hc => (h2 f hf).2 hc.symm, (h1 f hf).2⟩⟩, h3⟩

/-- A list that passes the check (R84). -/
abbrev Passes (L : List Entry) : Prop := firstDuplicate [] [] L = none

theorem passes_iff_pairwise {L : List Entry} :
    Passes L ↔ L.Pairwise (fun e f => (e.mnemonic, e.mode) ≠ (f.mnemonic, f.mode) ∧ e.opcode ≠ f.opcode) := by
  simp [Passes, firstDuplicate_eq_none]

theorem build_eq_ok {L M : List Entry} : build L = .ok M ↔ Passes L ∧ M = L := by
  unfold build Passes
  cases firstDuplicate [] [] L <;> simp [eq_comm]

theorem verdictOf_eq_passed {L : List Entry} : verdictOf L = .passed ↔ Passes L := by
  unfold verdictOf Passes
  cases firstDuplicate [] [] L <;> simp

/-- The check reports an entry that repeats a pair or a byte of the passing entries before it (R84). -/
theorem firstDuplicate_append {L M : List Entry} {e : Entry} {ps : List (Mnemonic × Mode)} {bs : List Byte}
    (h : firstDuplicate ps bs L = none)
    (he : (e.mnemonic, e.mode) ∈ ps ++ L.map (fun f => (f.mnemonic, f.mode)) ∨ e.opcode ∈ bs ++ L.map (·.opcode)) :
    firstDuplicate ps bs (L ++ e :: M) = some e := by
  induction L generalizing ps bs with
  | nil => rw [List.nil_append, firstDuplicate, if_pos (by simpa using he)]
  | cons f L ih =>
    simp only [firstDuplicate, List.cons_append] at h ⊢
    split at h
    · cases h
    · next hf =>
      rw [if_neg hf]
      refine ih h ?_
      simp only [List.map_cons, List.mem_append, List.mem_cons] at he ⊢
      tauto

theorem build_eq_error {L : List Entry} {e : Entry} (h : firstDuplicate [] [] L = some e) :
    build L = .error (.duplicateTableEntry e) := by simp [build, h]

theorem verdictOf_eq_failed {L : List Entry} {e : Entry} (h : firstDuplicate [] [] L = some e) :
    verdictOf L = .failed e := by simp [verdictOf, h]

theorem construct_eq_next {ext : Bool} {L : List Entry} (h : Passes L) : construct ext L = .next (powerOn ext L) := by
  simp [construct, show firstDuplicate [] [] L = none from h]

theorem construct_eq_fault {ext : Bool} {L : List Entry} {e : Entry}
    (h : firstDuplicate [] [] L = some e) : construct ext L = .fault (.duplicateTableEntry e) := by
  simp [construct, h]

/-- Two entries of a table that passes share neither pair nor byte. -/
theorem Passes.ne_of_ne {L : List Entry} (h : Passes L) {e f : Entry} (he : e ∈ L) (hf : f ∈ L) (hne : e ≠ f) :
    (e.mnemonic, e.mode) ≠ (f.mnemonic, f.mode) ∧ e.opcode ≠ f.opcode := by
  have hp := passes_iff_pairwise.mp h
  refine List.Pairwise.forall_of_forall_of_flip
    (R := fun e f => e ≠ f → (e.mnemonic, e.mode) ≠ (f.mnemonic, f.mode) ∧ e.opcode ≠ f.opcode)
    (fun _ _ hc => absurd rfl hc) ?_ ?_ he hf hne
  · exact hp.imp (by intro a b hab _; exact hab)
  · exact hp.imp (by intro a b hab _; exact ⟨hab.1.symm, hab.2.symm⟩)

/-- In a table that passes, the opcode byte determines the entry. -/
theorem Passes.eq_of_opcode {L : List Entry} (h : Passes L) {e f : Entry} (he : e ∈ L) (hf : f ∈ L)
    (ho : e.opcode = f.opcode) : e = f := by
  by_contra hne
  exact (h.ne_of_ne he hf hne).2 ho

/-- In a table that passes, the (mnemonic, mode) pair determines the entry. -/
theorem Passes.eq_of_pair {L : List Entry} (h : Passes L) {e f : Entry} (he : e ∈ L) (hf : f ∈ L)
    (hm : e.mnemonic = f.mnemonic) (hd : e.mode = f.mode) : e = f := by
  by_contra hne
  exact (h.ne_of_ne he hf hne).1 (by rw [hm, hd])

/-- A part of a table that passes, passes: so the table without the extension modes does. -/
theorem Passes.tableFor {L : List Entry} (h : Passes L) (ext : Bool) : Passes (tableFor ext L) :=
  passes_iff_pairwise.mpr ((passes_iff_pairwise.mp h).filter _)

/-- A serving block whose verdict is R84's holds a table that passes. -/
theorem State.Checked.passes {s : State} (h : s.Checked) (hs : s.Serving) : Passes s.rom :=
  (verdictOf_eq_passed.mp (h.symm.trans hs)).tableFor _

end Machine

/-! ### The lookups -/

theorem definedMnemonic_iff {rom : List Entry} {m : Text} :
    definedMnemonic rom m = true ↔ ∃ e ∈ rom, e.mnemonic.name = m := by
  simp [definedMnemonic]

/-- What `lookupOpcode` can answer (R81). -/
theorem lookupOpcode_cases (rom : List Entry) (m : Text) (mode : Mode) :
    (definedMnemonic rom m = false ∧ lookupOpcode rom m mode = .error (.unknownMnemonic m)) ∨
    (definedMnemonic rom m = true ∧ (∀ e ∈ rom, e.mnemonic.name = m → e.mode ≠ mode) ∧
      lookupOpcode rom m mode = .error (.unsupportedAddressingMode m mode)) ∨
    (∃ e ∈ rom, e.mnemonic.name = m ∧ e.mode = mode ∧ lookupOpcode rom m mode = .ok e.opcode) := by
  unfold lookupOpcode
  cases hd : definedMnemonic rom m with
  | false => simp
  | true =>
    simp only [if_true]
    cases hf : rom.find? (fun e => e.mnemonic.name == m && e.mode == mode) with
    | none =>
      refine .inr (.inl ⟨trivial, fun e he hn hm => ?_, rfl⟩)
      have := List.find?_eq_none.mp hf e he
      simp [hn, hm] at this
    | some e =>
      have h1 := List.find?_some hf
      simp only [Bool.and_eq_true, beq_iff_eq] at h1
      exact .inr (.inr ⟨e, List.mem_of_find?_eq_some hf, h1.1, h1.2, rfl⟩)

/-- What `lookupInstruction` can answer (R82). -/
theorem lookupInstruction_cases (rom : List Entry) (b : Byte) :
    ((∀ e ∈ rom, e.opcode ≠ b) ∧ lookupInstruction rom b = .error (.illegalOpcode b)) ∨
    (∃ e ∈ rom, e.opcode = b ∧ lookupInstruction rom b = .ok (e.mnemonic, e.mode)) := by
  unfold lookupInstruction
  cases hf : rom.find? (fun e => e.opcode == b) with
  | none => exact .inl ⟨fun e he ho => by simpa [ho] using List.find?_eq_none.mp hf e he, rfl⟩
  | some e => exact .inr ⟨e, List.mem_of_find?_eq_some hf, by simpa using List.find?_some hf, rfl⟩

/-- The entry of an opcode byte, in a table that passes. -/
theorem lookupInstruction_of_mem {rom : List Entry} (h : Machine.Passes rom) {e : Entry} (he : e ∈ rom) :
    lookupInstruction rom e.opcode = .ok (e.mnemonic, e.mode) := by
  rcases lookupInstruction_cases rom e.opcode with ⟨hn, -⟩ | ⟨f, hf, ho, hl⟩
  · exact absurd rfl (hn e he)
  · rw [hl, h.eq_of_opcode hf he ho]

/-- The opcode byte of a (mnemonic, mode) pair, in a table that passes. -/
theorem lookupOpcode_of_mem {rom : List Entry} (h : Machine.Passes rom) {e : Entry} (he : e ∈ rom) :
    lookupOpcode rom e.mnemonic.name e.mode = .ok e.opcode := by
  rcases lookupOpcode_cases rom e.mnemonic.name e.mode with ⟨hd, -⟩ | ⟨-, hn, -⟩ | ⟨f, hf, hm, hd, hl⟩
  · exact absurd (definedMnemonic_iff.mpr ⟨e, he, rfl⟩) (by simp [hd])
  · exact absurd rfl (hn e he rfl)
  · rw [hl, h.eq_of_pair hf he (Mnemonic.name_injective hm) hd]

/-! ### The opcode map passes the check -/

/-- The opcode map is in rising order of opcode byte, so no byte stands twice. -/
theorem opcodeTable_rising : (opcodeTable.map (·.opcode.toNat)).IsChain (· < ·) := by decide +kernel

/-- The number of a (mnemonic, mode) pair: its index and code side by side. -/
def pairCode (m : Mnemonic) (mode : Mode) : Nat := m.index.toNat * 16 + mode.code.toNat

theorem opcodeTable_pairs_nodup : (opcodeTable.map (fun e => pairCode e.mnemonic e.mode)).Nodup := by
  decide +kernel

/-- R65, R84: the opcode map passes the construction check. -/
theorem opcodeTable_passes : Machine.Passes opcodeTable := by
  rw [Machine.passes_iff_pairwise]
  have h1 : opcodeTable.Pairwise (fun e f => e.opcode.toNat < f.opcode.toNat) :=
    List.pairwise_map.mp (List.isChain_iff_pairwise.mp opcodeTable_rising)
  have h2 := List.pairwise_map.mp opcodeTable_pairs_nodup
  refine (h1.and h2).imp ?_
  rintro e f ⟨hb, hp⟩
  refine ⟨fun hc => hp ?_, fun hc => by simp [hc] at hb⟩
  rw [Prod.mk.injEq] at hc
  rw [hc.1, hc.2]

theorem romFor_passes (ext : Bool) : Machine.Passes (romFor ext) := opcodeTable_passes.tableFor ext

end Sys2Proof
end

