-- ==== Sys2Proof/Laws/Units.lean ====
section
/-! SUPPORT. One spec lemma for the Decoder and one for the Encoder, and the reading of decoded instructions. -/

namespace Sys2Proof

/-- What `decode` can answer (R150), in the order of its checks (R151). -/
theorem decode_cases (rom : List Entry) (bytes : Bytes) (cursor : Nat) :
    (bytes.length ≤ cursor ∧ decode rom bytes cursor = .error (.truncatedInstruction 1 0)) ∨
    (∃ b rest, bytes.drop cursor = b :: rest ∧ lookupInstruction rom b = .error (.illegalOpcode b) ∧
      decode rom bytes cursor = .error (.illegalOpcode b)) ∨
    (∃ b rest m mode, bytes.drop cursor = b :: rest ∧ lookupInstruction rom b = .ok (m, mode) ∧
      rest.length < mode.operandSize ∧
      decode rom bytes cursor = .error (.truncatedInstruction mode.operandSize rest.length)) ∨
    (∃ b rest m mode, bytes.drop cursor = b :: rest ∧ lookupInstruction rom b = .ok (m, mode) ∧
      mode.operandSize ≤ rest.length ∧
      decode rom bytes cursor = .ok ⟨m, mode, rest.take mode.operandSize, 1 + mode.operandSize⟩) := by
  unfold decode
  cases hd : bytes.drop cursor with
  | nil => exact .inl ⟨List.drop_eq_nil_iff.mp hd, rfl⟩
  | cons b rest =>
    rcases lookupInstruction_cases rom b with ⟨-, hl⟩ | ⟨e, -, -, hl⟩
    · exact .inr (.inl ⟨b, rest, rfl, hl, by simp [hl]⟩)
    · by_cases hs : rest.length < e.mode.operandSize
      · exact .inr (.inr (.inl ⟨b, rest, _, _, rfl, hl, hs, by simp [hl, hs]⟩))
      · exact .inr (.inr (.inr ⟨b, rest, _, _, rfl, hl, by omega, by simp [hl, hs]⟩))

/-- What `encode` can answer (R100), in the order of its checks (R102). -/
theorem encode_cases (rom : List Entry) (m : Text) (mode : Mode) (ops : Bytes) :
    (∃ e, lookupOpcode rom m mode = .error e ∧ encode rom m mode ops = .error e) ∨
    (∃ op, lookupOpcode rom m mode = .ok op ∧ ops.length ≠ mode.operandSize ∧
      encode rom m mode ops = .error (.operandSizeMismatch mode.operandSize ops.length)) ∨
    (∃ op, lookupOpcode rom m mode = .ok op ∧ ops.length = mode.operandSize ∧ encode rom m mode ops = .ok (op :: ops)) := by
  unfold encode
  cases hl : lookupOpcode rom m mode with
  | error e => exact .inl ⟨e, rfl, rfl⟩
  | ok op =>
    by_cases hs : ops.length = mode.operandSize
    · exact .inr (.inr ⟨op, rfl, hs, by simp [hs]⟩)
    · exact .inr (.inl ⟨op, rfl, hs, by simp [hs]⟩)

/-- The number of operand bytes is 0, 1 or 2 (R62). -/
theorem Mode.operandSize_le (mode : Mode) : mode.operandSize ≤ 2 := by cases mode <;> decide

/-- An instruction carries as many operand bytes as its mode has (R62). -/
theorem Instr.operands_length (i : Instr) : i.operands.length = i.mode.operandSize := by cases i <;> rfl

/-- Reading an instruction's own triple gives the instruction. -/
@[simp] theorem Instr.ofTriple_triple (i : Instr) : Instr.ofTriple i.mnemonic i.mode i.operands = some i := by
  cases i <;> rfl

/-- An instruction is extension-only exactly when its mode is (R69). -/
theorem Instr.extOnly_eq (i : Instr) : i.extOnly = i.mode.isExt := by cases i <;> rfl

end Sys2Proof
end

