-- ==== Sys2Proof/Laws/Resolver.lean ====
section
/-! SUPPORT. The bytes of words as numbers, the adder as a sum, and what the Resolver can answer. -/

namespace Sys2Proof.Machine

theorem hiByte_toNat (v : Word) : (hiByte v).toNat = v.toNat / 256 := by
  simp only [hiByte, BitVec.extractLsb'_toNat, Nat.shiftRight_eq_div_pow]
  omega

theorem loByte_toNat (v : Word) : (loByte v).toNat = v.toNat % 256 := by
  simp [loByte, BitVec.extractLsb'_toNat]

theorem wordOf_toNat (lo hi : Byte) : (wordOf lo hi).toNat = hi.toNat * 256 + lo.toNat := by
  have h1 : (hi.setWidth 16 <<< 8).toNat = hi.toNat <<< 8 := by
    have := hi.isLt
    simp only [BitVec.toNat_shiftLeft, BitVec.toNat_setWidth, Nat.shiftLeft_eq]
    omega
  have h2 : (lo.setWidth 16).toNat = lo.toNat := by
    have := lo.isLt
    simp only [BitVec.toNat_setWidth]
    omega
  rw [wordOf, BitVec.toNat_or, h1, h2, ← Nat.shiftLeft_add_eq_or_of_lt lo.isLt, Nat.shiftLeft_eq]

@[simp] theorem hiByte_wordOf (lo hi : Byte) : hiByte (wordOf lo hi) = hi := by
  apply BitVec.eq_of_toNat_eq
  rw [hiByte_toNat, wordOf_toNat]
  omega

@[simp] theorem loByte_wordOf (lo hi : Byte) : loByte (wordOf lo hi) = lo := by
  apply BitVec.eq_of_toNat_eq
  rw [loByte_toNat, wordOf_toNat]
  omega

@[simp] theorem wordOf_loByte_hiByte (v : Word) : wordOf (loByte v) (hiByte v) = v := by
  apply BitVec.eq_of_toNat_eq
  rw [wordOf_toNat, hiByte_toNat, loByte_toNat]
  omega

/-- The adder's low byte is the sum modulo 256, and its carry says whether the sum reaches 256 (R132). -/
theorem adder8_toNat (a i : Byte) :
    (adder8 a i).2.toNat = (a.toNat + i.toNat) % 256 ∧
    ((adder8 a i).1 = true ↔ 256 ≤ a.toNat + i.toNat) := by
  have hs : (a.setWidth 9 + i.setWidth 9 : BitVec 9).toNat = a.toNat + i.toNat := by
    have := a.isLt; have := i.isLt
    simp [BitVec.toNat_add, BitVec.toNat_setWidth]
    omega
  constructor
  · simp only [adder8, BitVec.extractLsb'_toNat, hs]
    simp
  · simp only [adder8, BitVec.getLsbD, hs, Nat.testBit_eq_decide_div_mod_eq]
    have := a.isLt; have := i.isLt
    simp
    omega

/-- What the Resolver can answer: an address exactly for a memory mode, and otherwise the one error (R120, R130, R131). -/
theorem resolveAddress_cases (mode : Mode) (operand : Word) (x y : Byte) (zpRead : Byte → Byte) :
    (mode.isMemory = false ∧ resolveAddress mode operand x y zpRead = .error (.noEffectiveAddress mode)) ∨
    (mode.isMemory = true ∧ ∃ a, resolveAddress mode operand x y zpRead = .ok a) := by
  cases mode <;> simp [resolveAddress, Mode.isMemory]

end Sys2Proof.Machine
end

