-- ==== Sys2Proof/Laws/Ops.lean ====
section
/-! SUPPORT. What each shared operation of the machine can answer, once per operation. -/

namespace Sys2Proof.Machine

/-- What a report is made of: an entry of the table for the pair, and, in a table that passes the check, that entry's
opcode followed by the operand bytes, decoding to what was encoded. -/
theorem report_eq_ok {rom : List Entry} (hp : Passes rom) {x y : Byte} {zp : Byte → Byte} {m : Mnemonic} {mode : Mode}
    {ops : Bytes} {r : InstructionReport} (h : report rom x y zp m mode ops = .ok r) :
    ∃ e ∈ rom, e.mnemonic = m ∧ e.mode = mode ∧ ops.length = mode.operandSize ∧
      r = describe (e.opcode :: ops) ⟨m, mode, ops, 1 + mode.operandSize⟩ x y zp := by
  unfold report at h
  rcases encode_cases rom m.name mode ops with ⟨e, -, he⟩ | ⟨op, -, -, he⟩ | ⟨op, hl, hs, he⟩
  · simp [he] at h
  · simp [he] at h
  · rcases lookupOpcode_cases rom m.name mode with ⟨-, hk⟩ | ⟨-, -, hk⟩ | ⟨e, hm, hn, hd, hk⟩
    · simp [hk] at hl
    · simp [hk] at hl
    · obtain rfl : e.opcode = op := by rw [hk] at hl; exact Except.ok.inj hl
      obtain rfl := Mnemonic.name_injective hn
      subst hd
      refine ⟨e, hm, rfl, rfl, hs, ?_⟩
      have hdec : decode rom (e.opcode :: ops) 0 = .ok ⟨e.mnemonic, e.mode, ops, 1 + e.mode.operandSize⟩ := by
        simp [decode, lookupInstruction_of_mem hp hm, hs, List.take_of_length_le hs.le]
      simpa [he, hdec, eq_comm] using h

/-- What `serve` can answer: a refusal where construction failed, else an error alone, else the report with the cursor
moved past it. -/
theorem serve_cases (m : Mnemonic) (mode : Mode) (ops : Bytes) (s : State) :
    (∃ e, s.construction = .failed e ∧ serve m mode ops s = .refused .constructionFailed) ∨
    (∃ e, s.Serving ∧ report s.rom s.x s.y s.zpRead m mode ops = .error e ∧
      serve m mode ops s = .next (s.answer (.error e))) ∨
    (∃ r, s.Serving ∧ report s.rom s.x s.y s.zpRead m mode ops = .ok r ∧
      serve m mode ops s = .next ((s.advance r.decoded.consumed).answer (.instruction r))) := by
  unfold serve State.Serving
  cases hc : s.construction with
  | failed e => exact .inl ⟨e, rfl, rfl⟩
  | passed =>
    cases hr : report s.rom s.x s.y s.zpRead m mode ops with
    | error e => exact .inr (.inl ⟨e, rfl, rfl, rfl⟩)
    | ok r => exact .inr (.inr ⟨r, rfl, rfl, rfl⟩)

/-- What `servePort` can answer: a refusal where construction failed or where the port refuses, else the answer alone. -/
theorem servePort_cases (r : Request) (s : State) :
    (∃ e, s.construction = .failed e ∧ servePort r s = .refused .constructionFailed) ∨
    (∃ e, s.Serving ∧ answerPort s.extModes s.rom s.zpRead r = .error e ∧ servePort r s = .refused e) ∨
    (∃ a, s.Serving ∧ answerPort s.extModes s.rom s.zpRead r = .ok a ∧ servePort r s = .next (s.answer a)) := by
  unfold servePort State.Serving
  cases hc : s.construction with
  | failed e => exact .inl ⟨e, rfl, rfl⟩
  | passed =>
    cases hr : answerPort s.extModes s.rom s.zpRead r with
    | error e => exact .inr (.inl ⟨e, rfl, rfl, rfl⟩)
    | ok a => exact .inr (.inr ⟨a, rfl, rfl, rfl⟩)

/-- What `fetch` can find: a refusal, a decoding error as the answer, an instruction, or a pair that is no row of the
opcode map. -/
theorem fetch_cases (s : State) :
    (∃ e, s.construction = .failed e ∧ fetch s = .error (.refused .constructionFailed)) ∨
    (∃ e, s.Serving ∧ decode s.rom s.stream s.cursor = .error e ∧ fetch s = .error (.next (s.answer (.error e)))) ∨
    (∃ d i, s.Serving ∧ decode s.rom s.stream s.cursor = .ok d ∧
      Instr.ofTriple d.mnemonic d.mode d.operands = some i ∧ fetch s = .ok i) ∨
    (∃ d, s.Serving ∧ decode s.rom s.stream s.cursor = .ok d ∧
      Instr.ofTriple d.mnemonic d.mode d.operands = none ∧
      fetch s = .error (serve d.mnemonic d.mode d.operands s)) := by
  unfold fetch State.Serving
  cases hc : s.construction with
  | failed e => exact .inl ⟨e, rfl, rfl⟩
  | passed =>
    cases hd : decode s.rom s.stream s.cursor with
    | error e => exact .inr (.inl ⟨e, rfl, rfl, rfl⟩)
    | ok d =>
      cases hi : Instr.ofTriple d.mnemonic d.mode d.operands with
      | none => exact .inr (.inr (.inr ⟨d, rfl, rfl, hi, by simp [hi]⟩))
      | some i => exact .inr (.inr (.inl ⟨d, i, rfl, rfl, hi, by simp [hi]⟩))

end Sys2Proof.Machine
end

