-- ==== Sys2Proof/Laws/PerInstr.lean ====
section
/-! SUPPORT. The family Encoding: for every instruction, the row of the opcode map that its bytes are. The bytes come
from the rules of 44_instructions.md and the map from R66, so each lemma says that the two agree. -/

namespace Sys2Proof.Laws.Encoding

/-- The instruction's pair is an entry of the opcode map, and its bytes are that entry's opcode followed by its operand
bytes (R60, R100). -/
def Statement (i : Instr) : Prop :=
  ∃ e ∈ opcodeTable, i.mnemonic = e.mnemonic ∧ i.mode = e.mode ∧ encodeInstr i = e.opcode :: i.operands

theorem of_entry {i : Instr} (e : Entry) (he : e ∈ opcodeTable) (hm : i.mnemonic = e.mnemonic) (hd : i.mode = e.mode)
    (hb : encodeInstr i = e.opcode :: i.operands) : Statement i := ⟨e, he, hm, hd, hb⟩

theorem adcImm (n : Byte) : Statement (.adcImm n) :=
  of_entry ⟨.adc, .immediate, 0x69⟩ (by decide) rfl rfl rfl
theorem adcZp (n : Byte) : Statement (.adcZp n) :=
  of_entry ⟨.adc, .zeroPage, 0x65⟩ (by decide) rfl rfl rfl
theorem adcZpx (n : Byte) : Statement (.adcZpx n) :=
  of_entry ⟨.adc, .zeroPageX, 0x75⟩ (by decide) rfl rfl rfl
theorem adcAbs (lo hi : Byte) : Statement (.adcAbs lo hi) :=
  of_entry ⟨.adc, .absolute, 0x6D⟩ (by decide) rfl rfl rfl
theorem adcAbx (lo hi : Byte) : Statement (.adcAbx lo hi) :=
  of_entry ⟨.adc, .absoluteX, 0x7D⟩ (by decide) rfl rfl rfl
theorem adcAby (lo hi : Byte) : Statement (.adcAby lo hi) :=
  of_entry ⟨.adc, .absoluteY, 0x79⟩ (by decide) rfl rfl rfl
theorem adcIzx (n : Byte) : Statement (.adcIzx n) :=
  of_entry ⟨.adc, .indirectX, 0x61⟩ (by decide) rfl rfl rfl
theorem adcIzy (n : Byte) : Statement (.adcIzy n) :=
  of_entry ⟨.adc, .indirectY, 0x71⟩ (by decide) rfl rfl rfl
theorem andImm (n : Byte) : Statement (.andImm n) :=
  of_entry ⟨.and, .immediate, 0x29⟩ (by decide) rfl rfl rfl
theorem andZp (n : Byte) : Statement (.andZp n) :=
  of_entry ⟨.and, .zeroPage, 0x25⟩ (by decide) rfl rfl rfl
theorem andZpx (n : Byte) : Statement (.andZpx n) :=
  of_entry ⟨.and, .zeroPageX, 0x35⟩ (by decide) rfl rfl rfl
theorem andAbs (lo hi : Byte) : Statement (.andAbs lo hi) :=
  of_entry ⟨.and, .absolute, 0x2D⟩ (by decide) rfl rfl rfl
theorem andAbx (lo hi : Byte) : Statement (.andAbx lo hi) :=
  of_entry ⟨.and, .absoluteX, 0x3D⟩ (by decide) rfl rfl rfl
theorem andAby (lo hi : Byte) : Statement (.andAby lo hi) :=
  of_entry ⟨.and, .absoluteY, 0x39⟩ (by decide) rfl rfl rfl
theorem andIzx (n : Byte) : Statement (.andIzx n) :=
  of_entry ⟨.and, .indirectX, 0x21⟩ (by decide) rfl rfl rfl
theorem andIzy (n : Byte) : Statement (.andIzy n) :=
  of_entry ⟨.and, .indirectY, 0x31⟩ (by decide) rfl rfl rfl
theorem aslAcc : Statement .aslAcc :=
  of_entry ⟨.asl, .accumulator, 0x0A⟩ (by decide) rfl rfl rfl
theorem aslZp (n : Byte) : Statement (.aslZp n) :=
  of_entry ⟨.asl, .zeroPage, 0x06⟩ (by decide) rfl rfl rfl
theorem aslZpx (n : Byte) : Statement (.aslZpx n) :=
  of_entry ⟨.asl, .zeroPageX, 0x16⟩ (by decide) rfl rfl rfl
theorem aslAbs (lo hi : Byte) : Statement (.aslAbs lo hi) :=
  of_entry ⟨.asl, .absolute, 0x0E⟩ (by decide) rfl rfl rfl
theorem aslAbx (lo hi : Byte) : Statement (.aslAbx lo hi) :=
  of_entry ⟨.asl, .absoluteX, 0x1E⟩ (by decide) rfl rfl rfl
theorem bccRel (n : Byte) : Statement (.bccRel n) :=
  of_entry ⟨.bcc, .relative, 0x90⟩ (by decide) rfl rfl rfl
theorem bcsRel (n : Byte) : Statement (.bcsRel n) :=
  of_entry ⟨.bcs, .relative, 0xB0⟩ (by decide) rfl rfl rfl
theorem beqRel (n : Byte) : Statement (.beqRel n) :=
  of_entry ⟨.beq, .relative, 0xF0⟩ (by decide) rfl rfl rfl
theorem bitZp (n : Byte) : Statement (.bitZp n) :=
  of_entry ⟨.bit, .zeroPage, 0x24⟩ (by decide) rfl rfl rfl
theorem bitAbs (lo hi : Byte) : Statement (.bitAbs lo hi) :=
  of_entry ⟨.bit, .absolute, 0x2C⟩ (by decide) rfl rfl rfl
theorem bmiRel (n : Byte) : Statement (.bmiRel n) :=
  of_entry ⟨.bmi, .relative, 0x30⟩ (by decide) rfl rfl rfl
theorem bneRel (n : Byte) : Statement (.bneRel n) :=
  of_entry ⟨.bne, .relative, 0xD0⟩ (by decide) rfl rfl rfl
theorem bplRel (n : Byte) : Statement (.bplRel n) :=
  of_entry ⟨.bpl, .relative, 0x10⟩ (by decide) rfl rfl rfl
theorem brkImp : Statement .brkImp :=
  of_entry ⟨.brk, .implied, 0x00⟩ (by decide) rfl rfl rfl
theorem bvcRel (n : Byte) : Statement (.bvcRel n) :=
  of_entry ⟨.bvc, .relative, 0x50⟩ (by decide) rfl rfl rfl
theorem bvsRel (n : Byte) : Statement (.bvsRel n) :=
  of_entry ⟨.bvs, .relative, 0x70⟩ (by decide) rfl rfl rfl
theorem clcImp : Statement .clcImp :=
  of_entry ⟨.clc, .implied, 0x18⟩ (by decide) rfl rfl rfl
theorem cldImp : Statement .cldImp :=
  of_entry ⟨.cld, .implied, 0xD8⟩ (by decide) rfl rfl rfl
theorem cliImp : Statement .cliImp :=
  of_entry ⟨.cli, .implied, 0x58⟩ (by decide) rfl rfl rfl
theorem clvImp : Statement .clvImp :=
  of_entry ⟨.clv, .implied, 0xB8⟩ (by decide) rfl rfl rfl
theorem cmpImm (n : Byte) : Statement (.cmpImm n) :=
  of_entry ⟨.cmp, .immediate, 0xC9⟩ (by decide) rfl rfl rfl
theorem cmpZp (n : Byte) : Statement (.cmpZp n) :=
  of_entry ⟨.cmp, .zeroPage, 0xC5⟩ (by decide) rfl rfl rfl
theorem cmpZpx (n : Byte) : Statement (.cmpZpx n) :=
  of_entry ⟨.cmp, .zeroPageX, 0xD5⟩ (by decide) rfl rfl rfl
theorem cmpAbs (lo hi : Byte) : Statement (.cmpAbs lo hi) :=
  of_entry ⟨.cmp, .absolute, 0xCD⟩ (by decide) rfl rfl rfl
theorem cmpAbx (lo hi : Byte) : Statement (.cmpAbx lo hi) :=
  of_entry ⟨.cmp, .absoluteX, 0xDD⟩ (by decide) rfl rfl rfl
theorem cmpAby (lo hi : Byte) : Statement (.cmpAby lo hi) :=
  of_entry ⟨.cmp, .absoluteY, 0xD9⟩ (by decide) rfl rfl rfl
theorem cmpIzx (n : Byte) : Statement (.cmpIzx n) :=
  of_entry ⟨.cmp, .indirectX, 0xC1⟩ (by decide) rfl rfl rfl
theorem cmpIzy (n : Byte) : Statement (.cmpIzy n) :=
  of_entry ⟨.cmp, .indirectY, 0xD1⟩ (by decide) rfl rfl rfl
theorem cpxImm (n : Byte) : Statement (.cpxImm n) :=
  of_entry ⟨.cpx, .immediate, 0xE0⟩ (by decide) rfl rfl rfl
theorem cpxZp (n : Byte) : Statement (.cpxZp n) :=
  of_entry ⟨.cpx, .zeroPage, 0xE4⟩ (by decide) rfl rfl rfl
theorem cpxAbs (lo hi : Byte) : Statement (.cpxAbs lo hi) :=
  of_entry ⟨.cpx, .absolute, 0xEC⟩ (by decide) rfl rfl rfl
theorem cpyImm (n : Byte) : Statement (.cpyImm n) :=
  of_entry ⟨.cpy, .immediate, 0xC0⟩ (by decide) rfl rfl rfl
theorem cpyZp (n : Byte) : Statement (.cpyZp n) :=
  of_entry ⟨.cpy, .zeroPage, 0xC4⟩ (by decide) rfl rfl rfl
theorem cpyAbs (lo hi : Byte) : Statement (.cpyAbs lo hi) :=
  of_entry ⟨.cpy, .absolute, 0xCC⟩ (by decide) rfl rfl rfl
theorem decZp (n : Byte) : Statement (.decZp n) :=
  of_entry ⟨.dec, .zeroPage, 0xC6⟩ (by decide) rfl rfl rfl
theorem decZpx (n : Byte) : Statement (.decZpx n) :=
  of_entry ⟨.dec, .zeroPageX, 0xD6⟩ (by decide) rfl rfl rfl
theorem decAbs (lo hi : Byte) : Statement (.decAbs lo hi) :=
  of_entry ⟨.dec, .absolute, 0xCE⟩ (by decide) rfl rfl rfl
theorem decAbx (lo hi : Byte) : Statement (.decAbx lo hi) :=
  of_entry ⟨.dec, .absoluteX, 0xDE⟩ (by decide) rfl rfl rfl
theorem dexImp : Statement .dexImp :=
  of_entry ⟨.dex, .implied, 0xCA⟩ (by decide) rfl rfl rfl
theorem deyImp : Statement .deyImp :=
  of_entry ⟨.dey, .implied, 0x88⟩ (by decide) rfl rfl rfl
theorem eorImm (n : Byte) : Statement (.eorImm n) :=
  of_entry ⟨.eor, .immediate, 0x49⟩ (by decide) rfl rfl rfl
theorem eorZp (n : Byte) : Statement (.eorZp n) :=
  of_entry ⟨.eor, .zeroPage, 0x45⟩ (by decide) rfl rfl rfl
theorem eorZpx (n : Byte) : Statement (.eorZpx n) :=
  of_entry ⟨.eor, .zeroPageX, 0x55⟩ (by decide) rfl rfl rfl
theorem eorAbs (lo hi : Byte) : Statement (.eorAbs lo hi) :=
  of_entry ⟨.eor, .absolute, 0x4D⟩ (by decide) rfl rfl rfl
theorem eorAbx (lo hi : Byte) : Statement (.eorAbx lo hi) :=
  of_entry ⟨.eor, .absoluteX, 0x5D⟩ (by decide) rfl rfl rfl
theorem eorAby (lo hi : Byte) : Statement (.eorAby lo hi) :=
  of_entry ⟨.eor, .absoluteY, 0x59⟩ (by decide) rfl rfl rfl
theorem eorIzx (n : Byte) : Statement (.eorIzx n) :=
  of_entry ⟨.eor, .indirectX, 0x41⟩ (by decide) rfl rfl rfl
theorem eorIzy (n : Byte) : Statement (.eorIzy n) :=
  of_entry ⟨.eor, .indirectY, 0x51⟩ (by decide) rfl rfl rfl
theorem incZp (n : Byte) : Statement (.incZp n) :=
  of_entry ⟨.inc, .zeroPage, 0xE6⟩ (by decide) rfl rfl rfl
theorem incZpx (n : Byte) : Statement (.incZpx n) :=
  of_entry ⟨.inc, .zeroPageX, 0xF6⟩ (by decide) rfl rfl rfl
theorem incAbs (lo hi : Byte) : Statement (.incAbs lo hi) :=
  of_entry ⟨.inc, .absolute, 0xEE⟩ (by decide) rfl rfl rfl
theorem incAbx (lo hi : Byte) : Statement (.incAbx lo hi) :=
  of_entry ⟨.inc, .absoluteX, 0xFE⟩ (by decide) rfl rfl rfl
theorem inxImp : Statement .inxImp :=
  of_entry ⟨.inx, .implied, 0xE8⟩ (by decide) rfl rfl rfl
theorem inyImp : Statement .inyImp :=
  of_entry ⟨.iny, .implied, 0xC8⟩ (by decide) rfl rfl rfl
theorem jmpAbs (lo hi : Byte) : Statement (.jmpAbs lo hi) :=
  of_entry ⟨.jmp, .absolute, 0x4C⟩ (by decide) rfl rfl rfl
theorem jmpInd (lo hi : Byte) : Statement (.jmpInd lo hi) :=
  of_entry ⟨.jmp, .indirect, 0x6C⟩ (by decide) rfl rfl rfl
theorem jsrAbs (lo hi : Byte) : Statement (.jsrAbs lo hi) :=
  of_entry ⟨.jsr, .absolute, 0x20⟩ (by decide) rfl rfl rfl
theorem ldaImm (n : Byte) : Statement (.ldaImm n) :=
  of_entry ⟨.lda, .immediate, 0xA9⟩ (by decide) rfl rfl rfl
theorem ldaZp (n : Byte) : Statement (.ldaZp n) :=
  of_entry ⟨.lda, .zeroPage, 0xA5⟩ (by decide) rfl rfl rfl
theorem ldaZpx (n : Byte) : Statement (.ldaZpx n) :=
  of_entry ⟨.lda, .zeroPageX, 0xB5⟩ (by decide) rfl rfl rfl
theorem ldaAbs (lo hi : Byte) : Statement (.ldaAbs lo hi) :=
  of_entry ⟨.lda, .absolute, 0xAD⟩ (by decide) rfl rfl rfl
theorem ldaAbx (lo hi : Byte) : Statement (.ldaAbx lo hi) :=
  of_entry ⟨.lda, .absoluteX, 0xBD⟩ (by decide) rfl rfl rfl
theorem ldaAby (lo hi : Byte) : Statement (.ldaAby lo hi) :=
  of_entry ⟨.lda, .absoluteY, 0xB9⟩ (by decide) rfl rfl rfl
theorem ldaIzx (n : Byte) : Statement (.ldaIzx n) :=
  of_entry ⟨.lda, .indirectX, 0xA1⟩ (by decide) rfl rfl rfl
theorem ldaIzy (n : Byte) : Statement (.ldaIzy n) :=
  of_entry ⟨.lda, .indirectY, 0xB1⟩ (by decide) rfl rfl rfl
theorem ldxImm (n : Byte) : Statement (.ldxImm n) :=
  of_entry ⟨.ldx, .immediate, 0xA2⟩ (by decide) rfl rfl rfl
theorem ldxZp (n : Byte) : Statement (.ldxZp n) :=
  of_entry ⟨.ldx, .zeroPage, 0xA6⟩ (by decide) rfl rfl rfl
theorem ldxZpy (n : Byte) : Statement (.ldxZpy n) :=
  of_entry ⟨.ldx, .zeroPageY, 0xB6⟩ (by decide) rfl rfl rfl
theorem ldxAbs (lo hi : Byte) : Statement (.ldxAbs lo hi) :=
  of_entry ⟨.ldx, .absolute, 0xAE⟩ (by decide) rfl rfl rfl
theorem ldxAby (lo hi : Byte) : Statement (.ldxAby lo hi) :=
  of_entry ⟨.ldx, .absoluteY, 0xBE⟩ (by decide) rfl rfl rfl
theorem ldyImm (n : Byte) : Statement (.ldyImm n) :=
  of_entry ⟨.ldy, .immediate, 0xA0⟩ (by decide) rfl rfl rfl
theorem ldyZp (n : Byte) : Statement (.ldyZp n) :=
  of_entry ⟨.ldy, .zeroPage, 0xA4⟩ (by decide) rfl rfl rfl
theorem ldyZpx (n : Byte) : Statement (.ldyZpx n) :=
  of_entry ⟨.ldy, .zeroPageX, 0xB4⟩ (by decide) rfl rfl rfl
theorem ldyAbs (lo hi : Byte) : Statement (.ldyAbs lo hi) :=
  of_entry ⟨.ldy, .absolute, 0xAC⟩ (by decide) rfl rfl rfl
theorem ldyAbx (lo hi : Byte) : Statement (.ldyAbx lo hi) :=
  of_entry ⟨.ldy, .absoluteX, 0xBC⟩ (by decide) rfl rfl rfl
theorem lsrAcc : Statement .lsrAcc :=
  of_entry ⟨.lsr, .accumulator, 0x4A⟩ (by decide) rfl rfl rfl
theorem lsrZp (n : Byte) : Statement (.lsrZp n) :=
  of_entry ⟨.lsr, .zeroPage, 0x46⟩ (by decide) rfl rfl rfl
theorem lsrZpx (n : Byte) : Statement (.lsrZpx n) :=
  of_entry ⟨.lsr, .zeroPageX, 0x56⟩ (by decide) rfl rfl rfl
theorem lsrAbs (lo hi : Byte) : Statement (.lsrAbs lo hi) :=
  of_entry ⟨.lsr, .absolute, 0x4E⟩ (by decide) rfl rfl rfl
theorem lsrAbx (lo hi : Byte) : Statement (.lsrAbx lo hi) :=
  of_entry ⟨.lsr, .absoluteX, 0x5E⟩ (by decide) rfl rfl rfl
theorem nopImp : Statement .nopImp :=
  of_entry ⟨.nop, .implied, 0xEA⟩ (by decide) rfl rfl rfl
theorem oraImm (n : Byte) : Statement (.oraImm n) :=
  of_entry ⟨.ora, .immediate, 0x09⟩ (by decide) rfl rfl rfl
theorem oraZp (n : Byte) : Statement (.oraZp n) :=
  of_entry ⟨.ora, .zeroPage, 0x05⟩ (by decide) rfl rfl rfl
theorem oraZpx (n : Byte) : Statement (.oraZpx n) :=
  of_entry ⟨.ora, .zeroPageX, 0x15⟩ (by decide) rfl rfl rfl
theorem oraAbs (lo hi : Byte) : Statement (.oraAbs lo hi) :=
  of_entry ⟨.ora, .absolute, 0x0D⟩ (by decide) rfl rfl rfl
theorem oraAbx (lo hi : Byte) : Statement (.oraAbx lo hi) :=
  of_entry ⟨.ora, .absoluteX, 0x1D⟩ (by decide) rfl rfl rfl
theorem oraAby (lo hi : Byte) : Statement (.oraAby lo hi) :=
  of_entry ⟨.ora, .absoluteY, 0x19⟩ (by decide) rfl rfl rfl
theorem oraIzx (n : Byte) : Statement (.oraIzx n) :=
  of_entry ⟨.ora, .indirectX, 0x01⟩ (by decide) rfl rfl rfl
theorem oraIzy (n : Byte) : Statement (.oraIzy n) :=
  of_entry ⟨.ora, .indirectY, 0x11⟩ (by decide) rfl rfl rfl
theorem phaImp : Statement .phaImp :=
  of_entry ⟨.pha, .implied, 0x48⟩ (by decide) rfl rfl rfl
theorem phpImp : Statement .phpImp :=
  of_entry ⟨.php, .implied, 0x08⟩ (by decide) rfl rfl rfl
theorem plaImp : Statement .plaImp :=
  of_entry ⟨.pla, .implied, 0x68⟩ (by decide) rfl rfl rfl
theorem plpImp : Statement .plpImp :=
  of_entry ⟨.plp, .implied, 0x28⟩ (by decide) rfl rfl rfl
theorem rolAcc : Statement .rolAcc :=
  of_entry ⟨.rol, .accumulator, 0x2A⟩ (by decide) rfl rfl rfl
theorem rolZp (n : Byte) : Statement (.rolZp n) :=
  of_entry ⟨.rol, .zeroPage, 0x26⟩ (by decide) rfl rfl rfl
theorem rolZpx (n : Byte) : Statement (.rolZpx n) :=
  of_entry ⟨.rol, .zeroPageX, 0x36⟩ (by decide) rfl rfl rfl
theorem rolAbs (lo hi : Byte) : Statement (.rolAbs lo hi) :=
  of_entry ⟨.rol, .absolute, 0x2E⟩ (by decide) rfl rfl rfl
theorem rolAbx (lo hi : Byte) : Statement (.rolAbx lo hi) :=
  of_entry ⟨.rol, .absoluteX, 0x3E⟩ (by decide) rfl rfl rfl
theorem rorAcc : Statement .rorAcc :=
  of_entry ⟨.ror, .accumulator, 0x6A⟩ (by decide) rfl rfl rfl
theorem rorZp (n : Byte) : Statement (.rorZp n) :=
  of_entry ⟨.ror, .zeroPage, 0x66⟩ (by decide) rfl rfl rfl
theorem rorZpx (n : Byte) : Statement (.rorZpx n) :=
  of_entry ⟨.ror, .zeroPageX, 0x76⟩ (by decide) rfl rfl rfl
theorem rorAbs (lo hi : Byte) : Statement (.rorAbs lo hi) :=
  of_entry ⟨.ror, .absolute, 0x6E⟩ (by decide) rfl rfl rfl
theorem rorAbx (lo hi : Byte) : Statement (.rorAbx lo hi) :=
  of_entry ⟨.ror, .absoluteX, 0x7E⟩ (by decide) rfl rfl rfl
theorem rtiImp : Statement .rtiImp :=
  of_entry ⟨.rti, .implied, 0x40⟩ (by decide) rfl rfl rfl
theorem rtsImp : Statement .rtsImp :=
  of_entry ⟨.rts, .implied, 0x60⟩ (by decide) rfl rfl rfl
theorem sbcImm (n : Byte) : Statement (.sbcImm n) :=
  of_entry ⟨.sbc, .immediate, 0xE9⟩ (by decide) rfl rfl rfl
theorem sbcZp (n : Byte) : Statement (.sbcZp n) :=
  of_entry ⟨.sbc, .zeroPage, 0xE5⟩ (by decide) rfl rfl rfl
theorem sbcZpx (n : Byte) : Statement (.sbcZpx n) :=
  of_entry ⟨.sbc, .zeroPageX, 0xF5⟩ (by decide) rfl rfl rfl
theorem sbcAbs (lo hi : Byte) : Statement (.sbcAbs lo hi) :=
  of_entry ⟨.sbc, .absolute, 0xED⟩ (by decide) rfl rfl rfl
theorem sbcAbx (lo hi : Byte) : Statement (.sbcAbx lo hi) :=
  of_entry ⟨.sbc, .absoluteX, 0xFD⟩ (by decide) rfl rfl rfl
theorem sbcAby (lo hi : Byte) : Statement (.sbcAby lo hi) :=
  of_entry ⟨.sbc, .absoluteY, 0xF9⟩ (by decide) rfl rfl rfl
theorem sbcIzx (n : Byte) : Statement (.sbcIzx n) :=
  of_entry ⟨.sbc, .indirectX, 0xE1⟩ (by decide) rfl rfl rfl
theorem sbcIzy (n : Byte) : Statement (.sbcIzy n) :=
  of_entry ⟨.sbc, .indirectY, 0xF1⟩ (by decide) rfl rfl rfl
theorem secImp : Statement .secImp :=
  of_entry ⟨.sec, .implied, 0x38⟩ (by decide) rfl rfl rfl
theorem sedImp : Statement .sedImp :=
  of_entry ⟨.sed, .implied, 0xF8⟩ (by decide) rfl rfl rfl
theorem seiImp : Statement .seiImp :=
  of_entry ⟨.sei, .implied, 0x78⟩ (by decide) rfl rfl rfl
theorem staZp (n : Byte) : Statement (.staZp n) :=
  of_entry ⟨.sta, .zeroPage, 0x85⟩ (by decide) rfl rfl rfl
theorem staZpx (n : Byte) : Statement (.staZpx n) :=
  of_entry ⟨.sta, .zeroPageX, 0x95⟩ (by decide) rfl rfl rfl
theorem staAbs (lo hi : Byte) : Statement (.staAbs lo hi) :=
  of_entry ⟨.sta, .absolute, 0x8D⟩ (by decide) rfl rfl rfl
theorem staAbx (lo hi : Byte) : Statement (.staAbx lo hi) :=
  of_entry ⟨.sta, .absoluteX, 0x9D⟩ (by decide) rfl rfl rfl
theorem staAby (lo hi : Byte) : Statement (.staAby lo hi) :=
  of_entry ⟨.sta, .absoluteY, 0x99⟩ (by decide) rfl rfl rfl
theorem staIzx (n : Byte) : Statement (.staIzx n) :=
  of_entry ⟨.sta, .indirectX, 0x81⟩ (by decide) rfl rfl rfl
theorem staIzy (n : Byte) : Statement (.staIzy n) :=
  of_entry ⟨.sta, .indirectY, 0x91⟩ (by decide) rfl rfl rfl
theorem stxZp (n : Byte) : Statement (.stxZp n) :=
  of_entry ⟨.stx, .zeroPage, 0x86⟩ (by decide) rfl rfl rfl
theorem stxZpy (n : Byte) : Statement (.stxZpy n) :=
  of_entry ⟨.stx, .zeroPageY, 0x96⟩ (by decide) rfl rfl rfl
theorem stxAbs (lo hi : Byte) : Statement (.stxAbs lo hi) :=
  of_entry ⟨.stx, .absolute, 0x8E⟩ (by decide) rfl rfl rfl
theorem styZp (n : Byte) : Statement (.styZp n) :=
  of_entry ⟨.sty, .zeroPage, 0x84⟩ (by decide) rfl rfl rfl
theorem styZpx (n : Byte) : Statement (.styZpx n) :=
  of_entry ⟨.sty, .zeroPageX, 0x94⟩ (by decide) rfl rfl rfl
theorem styAbs (lo hi : Byte) : Statement (.styAbs lo hi) :=
  of_entry ⟨.sty, .absolute, 0x8C⟩ (by decide) rfl rfl rfl
theorem taxImp : Statement .taxImp :=
  of_entry ⟨.tax, .implied, 0xAA⟩ (by decide) rfl rfl rfl
theorem tayImp : Statement .tayImp :=
  of_entry ⟨.tay, .implied, 0xA8⟩ (by decide) rfl rfl rfl
theorem tsxImp : Statement .tsxImp :=
  of_entry ⟨.tsx, .implied, 0xBA⟩ (by decide) rfl rfl rfl
theorem txaImp : Statement .txaImp :=
  of_entry ⟨.txa, .implied, 0x8A⟩ (by decide) rfl rfl rfl
theorem txsImp : Statement .txsImp :=
  of_entry ⟨.txs, .implied, 0x9A⟩ (by decide) rfl rfl rfl
theorem tyaImp : Statement .tyaImp :=
  of_entry ⟨.tya, .implied, 0x98⟩ (by decide) rfl rfl rfl

end Sys2Proof.Laws.Encoding
end

