-- ==== Sys2Proof/Laws/Step.lean ====
section
/-! SUPPORT. What `exec` and `step` can answer: every meaning is the shared one, over the instruction's own triple. -/

namespace Sys2Proof.Machine

/-- Every instruction's meaning is `serve` of its mnemonic, mode and operand bytes. -/
theorem exec_eq_serve (i : Instr) (s : State) : exec i s = serve i.mnemonic i.mode i.operands s := by
  cases i <;> rfl

/-- A triple that reads as an instruction is that instruction's. -/
theorem ofTriple_eq_some {m : Mnemonic} {mode : Mode} {ops : Bytes} {i : Instr} (h : Instr.ofTriple m mode ops = some i) :
    i.mnemonic = m ∧ i.mode = mode ∧ i.operands = ops := by
  unfold Instr.ofTriple at h
  split at h <;> cases m <;> cases h <;> exact ⟨rfl, rfl, rfl⟩

/-- What a step can do: serve the first pending request, refuse, answer a decoding error, or serve the instruction
decoded at the cursor. -/
theorem step_cases (s : State) :
    (∃ r rest, s.pending = r :: rest ∧ step s = servePort r s.popRequest) ∨
    (s.pending = [] ∧ ∃ e, s.construction = .failed e ∧ step s = .refused .constructionFailed) ∨
    (s.Walking ∧ ∃ e, decode s.rom s.stream s.cursor = .error e ∧ step s = .next (s.answer (.error e))) ∨
    (s.Walking ∧ ∃ d, decode s.rom s.stream s.cursor = .ok d ∧ step s = serve d.mnemonic d.mode d.operands s) := by
  unfold step
  cases hp : s.pending with
  | cons r rest => exact .inl ⟨r, rest, rfl, rfl⟩
  | nil =>
    rcases fetch_cases s with ⟨e, hc, hf⟩ | ⟨e, hc, hd, hf⟩ | ⟨d, i, hc, hd, hi, hf⟩ | ⟨d, hc, hd, -, hf⟩
    · exact .inr (.inl ⟨rfl, e, hc, by simp [hf]⟩)
    · exact .inr (.inr (.inl ⟨⟨hc, hp⟩, e, hd, by simp [hf]⟩))
    · obtain ⟨h1, h2, h3⟩ := ofTriple_eq_some hi
      exact .inr (.inr (.inr ⟨⟨hc, hp⟩, d, hd, by simp [hf, exec_eq_serve, h1, h2, h3]⟩))
    · exact .inr (.inr (.inr ⟨⟨hc, hp⟩, d, hd, by simp [hf]⟩))

end Sys2Proof.Machine
end

