-- ==== Sys2Proof/Tests/Slice0.lean ====
section
/-! SUPPORT. Tests and witnesses. Expected results come from spec/: the vectors of 95_test_vectors.md (named S, T, K, E,
X, A, Q, M and P there) and the rows of each mnemonic's rule (44_instructions.md); the witnesses show a state and
operands that meet the hypotheses of each statement. -/

namespace Sys2Proof.Tests

open Sys2Proof.Machine

/-! ### States the tests use -/

/-- The caller's memory of 95_test_vectors.md section 5. -/
def vectorMem : List Host.Cell :=
  [(0x00, 0x12), (0x10, 0xFF), (0x11, 0x30), (0x24, 0x74), (0x25, 0x20), (0x81, 0x02), (0x86, 0x28), (0x87, 0x40),
   (0xFF, 0x34)]

/-- The default block with that memory. -/
def vectorState : State := { State.reset with mem := vectorMem }

/-- Its read port. -/
def vectorZp : Byte → Byte := vectorState.zpRead

/-- The default block at a cursor of a stream. -/
def walkAt (stream : Bytes) (cursor : Nat) : State := { State.reset with stream := stream, cursor := cursor }

/-- The block with EXT_MODES at a cursor of a stream. -/
def extWalkAt (stream : Bytes) (cursor : Nat) : State := { walkAt stream cursor with extModes := true }

/-- The block whose table is K2's: the collision of R85 makes its construction fail. -/
def collidedState : State := powerOn false (opcodeTable ++ [⟨.cpx, .immediate, 0xC0⟩])

/-- The default block with one port request pending. -/
def asking (r : Request) : State := { vectorState with pending := [r] }

/-- The response a step leaves, and the cursor it leaves. -/
def answerOf (o : Host.Outcome State Fault Refusal) : Option (Option Response × Nat) :=
  match o with
  | .next t => some (t.response, t.cursor)
  | .fault _ | .refused _ => none

/-- Decoding, resolving and moving on, as the walks of 95_test_vectors.md section 6 show a step: what was decoded, the
address, the next cursor. -/
def walkRow (o : Host.Outcome State Fault Refusal) : Option (Decoded × Except BlockError EffectiveAddress × Nat) :=
  match o with
  | .next t =>
    match t.response with
    | some (.instruction r) => some (r.decoded, r.address, t.cursor)
    | _ => none
  | .fault _ | .refused _ => none

/-! ### Well-formedness: the one check refuses and accepts (R12, R69) -/

theorem test_wellFormed_refuses_branch : (Instr.bneRel 0xFC).wellFormed false = false := by decide

theorem test_wellFormed_refuses_jmpInd : (Instr.jmpInd 0x00 0x03).wellFormed false = false := by decide

theorem test_wellFormed_accepts :
    (Instr.bneRel 0xFC).wellFormed true = true ∧ (Instr.jmpInd 0x00 0x03).wellFormed true = true ∧
    (Instr.jmpAbs 0x00 0x03).wellFormed false = true := by decide

/-! ### Words of every family, written out from the rules of 44_instructions.md (first byte in bits 7..0) -/

theorem test_words_arithmetic :
    decodeTableWord 16 0x0169 = some (.adcImm 0x01) ∧ decodeTableWord 24 0x20FF7D = some (.adcAbx 0xFF 0x20) ∧
    decodeTableWord 16 0x10F1 = some (.sbcIzy 0x10) := by decide

theorem test_words_logic :
    decodeTableWord 16 0x1021 = some (.andIzx 0x10) ∧ decodeTableWord 24 0x20002C = some (.bitAbs 0x00 0x20) ∧
    decodeTableWord 16 0x0F49 = some (.eorImm 0x0F) ∧ decodeTableWord 24 0x123419 = some (.oraAby 0x34 0x12) := by
  decide

theorem test_words_shift :
    decodeTableWord 8 0x0A = some .aslAcc ∧ decodeTableWord 16 0x1056 = some (.lsrZpx 0x10) ∧
    decodeTableWord 24 0x12342E = some (.rolAbs 0x34 0x12) ∧ decodeTableWord 8 0x6A = some .rorAcc := by decide

theorem test_words_compare :
    decodeTableWord 16 0x10C1 = some (.cmpIzx 0x10) ∧ decodeTableWord 16 0x10E0 = some (.cpxImm 0x10) ∧
    decodeTableWord 16 0x10C0 = some (.cpyImm 0x10) := by decide

theorem test_words_count :
    decodeTableWord 24 0x1234DE = some (.decAbx 0x34 0x12) ∧ decodeTableWord 16 0x10E6 = some (.incZp 0x10) ∧
    decodeTableWord 8 0xCA = some .dexImp ∧ decodeTableWord 8 0xC8 = some .inyImp := by decide

theorem test_words_load :
    decodeTableWord 16 0x2AA9 = some (.ldaImm 0x2A) ∧ decodeTableWord 16 0x10B6 = some (.ldxZpy 0x10) ∧
    decodeTableWord 24 0x1234BC = some (.ldyAbx 0x34 0x12) := by decide

theorem test_words_store :
    decodeTableWord 24 0x20008D = some (.staAbs 0x00 0x20) ∧ decodeTableWord 16 0x1096 = some (.stxZpy 0x10) ∧
    decodeTableWord 16 0x1094 = some (.styZpx 0x10) := by decide

theorem test_words_transfer_stack_status :
    decodeTableWord 8 0xAA = some .taxImp ∧ decodeTableWord 8 0x9A = some .txsImp ∧
    decodeTableWord 8 0x48 = some .phaImp ∧ decodeTableWord 8 0x28 = some .plpImp ∧
    decodeTableWord 8 0x18 = some .clcImp ∧ decodeTableWord 8 0x78 = some .seiImp := by decide

theorem test_words_branch :
    decodeTableWord 16 0xFCD0 = some (.bneRel 0xFC) ∧ decodeTableWord 16 0x0010 = some (.bplRel 0x00) ∧
    decodeTableWord 16 0x7FF0 = some (.beqRel 0x7F) := by decide

theorem test_words_control :
    decodeTableWord 8 0x00 = some .brkImp ∧ decodeTableWord 24 0x123420 = some (.jsrAbs 0x34 0x12) ∧
    decodeTableWord 24 0x03006C = some (.jmpInd 0x00 0x03) ∧ decodeTableWord 8 0x60 = some .rtsImp ∧
    decodeTableWord 8 0x40 = some .rtiImp ∧ decodeTableWord 8 0xEA = some .nopImp := by decide

/-- Operand words the table gives no bits are zero. -/
theorem test_words_without_operand_bits :
    decodeTableWord 8 0xA9 = some (.ldaImm 0x00) ∧ decodeTableWord 8 0x4C = some (.jmpAbs 0x00 0x00) := by decide

/-- R68: illegal bytes decode to nothing. -/
theorem test_words_illegal :
    decodeTableWord 8 0x02 = none ∧ decodeTableWord 8 0x89 = none ∧ decodeTableWord 8 0xFF = none := by decide

/-! ### The lookups (95_test_vectors.md section 2) -/

/-- T1, T3, T5, T6, T8, T12, T14, T15. -/
theorem test_lookupOpcode :
    lookupOpcode (romFor false) [0x4C, 0x44, 0x41] .immediate = .ok 0xA9 ∧
    lookupOpcode (romFor false) [0x4C, 0x44, 0x58] .zeroPageY = .ok 0xB6 ∧
    lookupOpcode (romFor false) [0x4A, 0x4D, 0x50] .absolute = .ok 0x4C ∧
    lookupOpcode (romFor true) [0x4A, 0x4D, 0x50] .indirect = .ok 0x6C ∧
    lookupOpcode (romFor true) [0x42, 0x4E, 0x45] .relative = .ok 0xD0 ∧
    lookupOpcode (romFor false) [0x43, 0x50, 0x59] .absolute = .ok 0xCC ∧
    lookupOpcode (romFor false) [0x53, 0x54, 0x58] .zeroPageY = .ok 0x96 ∧
    lookupOpcode (romFor false) [0x53, 0x54, 0x59] .zeroPageX = .ok 0x94 := by decide

/-- T2, T4, T7, T9, T10 (lower case), T13. -/
theorem test_lookupOpcode_errors :
    lookupOpcode (romFor false) [0x4C, 0x44, 0x41] .zeroPageY =
      .error (.unsupportedAddressingMode [0x4C, 0x44, 0x41] .zeroPageY) ∧
    lookupOpcode (romFor false) [0x53, 0x54, 0x41] .immediate =
      .error (.unsupportedAddressingMode [0x53, 0x54, 0x41] .immediate) ∧
    lookupOpcode (romFor false) [0x42, 0x4E, 0x45] .relative = .error (.unknownMnemonic [0x42, 0x4E, 0x45]) ∧
    lookupOpcode (romFor true) [0x42, 0x4E, 0x45] .absolute =
      .error (.unsupportedAddressingMode [0x42, 0x4E, 0x45] .absolute) ∧
    lookupOpcode (romFor false) [0x6C, 0x64, 0x61] .immediate = .error (.unknownMnemonic [0x6C, 0x64, 0x61]) ∧
    lookupOpcode (romFor false) [0x41, 0x53, 0x4C] .implied =
      .error (.unsupportedAddressingMode [0x41, 0x53, 0x4C] .implied) := by decide

/-- S10, T17, T20, T22, T23, T24, T28. -/
theorem test_lookupInstruction :
    lookupInstruction (romFor false) 0xC0 = .ok (.cpy, .immediate) ∧
    lookupInstruction (romFor false) 0xE0 = .ok (.cpx, .immediate) ∧
    lookupInstruction (romFor false) 0x00 = .ok (.brk, .implied) ∧
    lookupInstruction (romFor false) 0x96 = .ok (.stx, .zeroPageY) ∧
    lookupInstruction (romFor false) 0x81 = .ok (.sta, .indirectX) ∧
    lookupInstruction (romFor false) 0x6C = .error (.illegalOpcode 0x6C) ∧
    lookupInstruction (romFor true) 0x6C = .ok (.jmp, .indirect) ∧
    lookupInstruction (romFor false) 0xEB = .error (.illegalOpcode 0xEB) := by decide

/-- T33, T34, T35: the names. -/
theorem test_mnemonicName :
    mnemonicName .adc = (0x41, 0x44, 0x43) ∧ mnemonicName .tya = (0x54, 0x59, 0x41) ∧
    mnemonicName .bne = (0x42, 0x4E, 0x45) := by decide

/-- R71: the ROM word of LDA Immediate (index 29, mode code 2) and of an illegal byte. -/
theorem test_romWord : romWord (romFor false) 0xA9 = 0b1_011101_0010 ∧ romWord (romFor false) 0xFF = 0 := by decide

/-! ### Construction (K1 to K4) -/

theorem test_construct_opcodeTable : construct false opcodeTable = .next (powerOn false opcodeTable) :=
  construct_eq_next opcodeTable_passes

/-- K2's list: the collision of R85 is found at its last entry. -/
theorem collision_found :
    firstDuplicate [] [] (opcodeTable ++ [⟨.cpx, .immediate, 0xC0⟩]) = some ⟨.cpx, .immediate, 0xC0⟩ :=
  firstDuplicate_append opcodeTable_passes (.inl (by decide))

/-- K3's list: its byte 0xEA is found at its last entry. -/
theorem duplicate_byte_found :
    firstDuplicate [] [] (opcodeTable ++ [⟨.nop, .immediate, 0xEA⟩]) = some ⟨.nop, .immediate, 0xEA⟩ :=
  firstDuplicate_append opcodeTable_passes (.inr (by decide))

theorem test_construct_collision :
    construct false (opcodeTable ++ [⟨.cpx, .immediate, 0xC0⟩]) =
      .fault (.duplicateTableEntry ⟨.cpx, .immediate, 0xC0⟩) := construct_eq_fault collision_found

theorem test_construct_duplicate_byte :
    construct false (opcodeTable ++ [⟨.nop, .immediate, 0xEA⟩]) =
      .fault (.duplicateTableEntry ⟨.nop, .immediate, 0xEA⟩) := construct_eq_fault duplicate_byte_found

/-- R13 and R84: the check covers OPCODE_ROM whole, entries that are absent without EXT_MODES too. -/
theorem test_construct_duplicate_extension :
    construct false [⟨.bne, .relative, 0xD0⟩, ⟨.bne, .relative, 0xD1⟩] =
      .fault (.duplicateTableEntry ⟨.bne, .relative, 0xD1⟩) := construct_eq_fault (by decide)

theorem test_build_duplicate_pair :
    build [⟨.lda, .immediate, 0xA9⟩, ⟨.lda, .immediate, 0xA9⟩] =
      .error (.duplicateTableEntry ⟨.lda, .immediate, 0xA9⟩) := by decide

/-! ### The Encoder (95_test_vectors.md section 3) -/

/-- E1, E4, E6, E14, E15, E20. -/
theorem test_encode :
    encode (romFor false) [0x43, 0x4C, 0x43] .implied [] = .ok [0x18] ∧
    encode (romFor false) [0x4C, 0x44, 0x41] .immediate [0x00] = .ok [0xA9, 0x00] ∧
    encode (romFor false) [0x53, 0x54, 0x41] .absolute [0x00, 0x20] = .ok [0x8D, 0x00, 0x20] ∧
    encode (romFor true) [0x42, 0x4E, 0x45] .relative [0xFC] = .ok [0xD0, 0xFC] ∧
    encode (romFor true) [0x4A, 0x4D, 0x50] .indirect [0x00, 0x03] = .ok [0x6C, 0x00, 0x03] ∧
    encode (romFor false) [0x4C, 0x44, 0x41] .indirectY [0x10] = .ok [0xB1, 0x10] := by decide

/-- E3, E8, E10, E11, E12, E16. -/
theorem test_encode_errors :
    encode (romFor false) [0x52, 0x4F, 0x52] .accumulator [0x00] = .error (.operandSizeMismatch 0 1) ∧
    encode (romFor false) [0x4C, 0x44, 0x41] .absolute [0x20] = .error (.operandSizeMismatch 2 1) ∧
    encode (romFor false) [0x4C, 0x44, 0x41] .immediate [0x01, 0x02] = .error (.operandSizeMismatch 1 2) ∧
    encode (romFor false) [0x41, 0x44, 0x43] .implied [0x01, 0x02] =
      .error (.unsupportedAddressingMode [0x41, 0x44, 0x43] .implied) ∧
    encode (romFor false) [0x46, 0x4F, 0x4F] .implied [0x01] = .error (.unknownMnemonic [0x46, 0x4F, 0x4F]) ∧
    encode (romFor false) [0x4A, 0x4D, 0x50] .indirect [0x00, 0x03] =
      .error (.unsupportedAddressingMode [0x4A, 0x4D, 0x50] .indirect) := by decide

/-- The encoder of an instruction, from the rows of R162, R189, R187. -/
theorem test_encodeInstr :
    encodeInstr (.aslZp 0x10) = [0x06, 0x10] ∧ encodeInstr (.ldaAbx 0xFF 0xFF) = [0xBD, 0xFF, 0xFF] ∧
    encodeInstr (.jmpInd 0x00 0x03) = [0x6C, 0x00, 0x03] := by decide

/-! ### The Decoder (95_test_vectors.md section 4) -/

/-- X1, X2, X3, X14, X17, X18. -/
theorem test_decode :
    decode (romFor false) [0xEA] 0 = .ok ⟨.nop, .implied, [], 1⟩ ∧
    decode (romFor false) [0xA9, 0x2A] 0 = .ok ⟨.lda, .immediate, [0x2A], 2⟩ ∧
    decode (romFor false) [0xAD, 0x00, 0x20] 0 = .ok ⟨.lda, .absolute, [0x00, 0x20], 3⟩ ∧
    decode (romFor true) [0xD0, 0xFC] 0 = .ok ⟨.bne, .relative, [0xFC], 2⟩ ∧
    decode (romFor false) [0x00, 0xA9, 0x05] 1 = .ok ⟨.lda, .immediate, [0x05], 2⟩ ∧
    decode (romFor false) [0xA9, 0x05, 0x00] 1 = .ok ⟨.ora, .zeroPage, [0x00], 2⟩ := by decide

/-- X4, X5, X7, X8, X9, X10, X12, X13. -/
theorem test_decode_errors :
    decode (romFor false) [0xAD, 0x00] 0 = .error (.truncatedInstruction 2 1) ∧
    decode (romFor false) [0xAD] 0 = .error (.truncatedInstruction 2 0) ∧
    decode (romFor false) [] 0 = .error (.truncatedInstruction 1 0) ∧
    decode (romFor false) [0xEA] 1 = .error (.truncatedInstruction 1 0) ∧
    decode (romFor false) [0xEA] 5 = .error (.truncatedInstruction 1 0) ∧
    decode (romFor false) [0xFF] 0 = .error (.illegalOpcode 0xFF) ∧
    decode (romFor false) [0xD0] 0 = .error (.illegalOpcode 0xD0) ∧
    decode (romFor true) [0xD0] 0 = .error (.truncatedInstruction 1 0) := by decide

/-! ### The Resolver (95_test_vectors.md section 5) -/

/-- A2, A3, A5, A7, A8, A9. -/
theorem test_resolve_zeroPage :
    resolveAddress .zeroPage 0x1234 0x00 0x00 vectorZp = .ok ⟨0x0034, false⟩ ∧
    resolveAddress .zeroPage 0x00FF 0xFF 0xFF vectorZp = .ok ⟨0x00FF, false⟩ ∧
    resolveAddress .zeroPageX 0x0080 0x80 0x00 vectorZp = .ok ⟨0x0000, false⟩ ∧
    resolveAddress .zeroPageX 0x0010 0x05 0xFF vectorZp = .ok ⟨0x0015, false⟩ ∧
    resolveAddress .zeroPageY 0x00F0 0x00 0x20 vectorZp = .ok ⟨0x0010, false⟩ ∧
    resolveAddress .zeroPageY 0x0000 0xFF 0x00 vectorZp = .ok ⟨0x0000, false⟩ := by decide

/-- A11, A13, A15, A17, A18, A19. -/
theorem test_resolve_absolute :
    resolveAddress .absolute 0xFFFF 0x05 0x05 vectorZp = .ok ⟨0xFFFF, false⟩ ∧
    resolveAddress .absoluteX 0x20FE 0x01 0x00 vectorZp = .ok ⟨0x20FF, false⟩ ∧
    resolveAddress .absoluteX 0x2080 0xFF 0x00 vectorZp = .ok ⟨0x217F, true⟩ ∧
    resolveAddress .absoluteX 0xFFFF 0x01 0x00 vectorZp = .ok ⟨0x0000, true⟩ ∧
    resolveAddress .absoluteY 0x12F0 0x00 0x20 vectorZp = .ok ⟨0x1310, true⟩ ∧
    resolveAddress .absoluteY 0x1200 0xFF 0x0F vectorZp = .ok ⟨0x120F, false⟩ := by decide

/-- A21, A22, A24, A25 with A26, A27, A28, A30. -/
theorem test_resolve_indirect :
    resolveAddress .indirectX 0x0020 0x04 0x00 vectorZp = .ok ⟨0x2074, false⟩ ∧
    resolveAddress .indirectX 0x00FE 0x01 0x00 vectorZp = .ok ⟨0x1234, false⟩ ∧
    resolveAddress .indirectX 0x00FF 0x01 0x00 vectorZp = .ok ⟨0x0012, false⟩ ∧
    resolveAddress .indirectX 0x0010 0x00 0xFF vectorZp = .ok ⟨0x30FF, false⟩ ∧
    resolveAddress .indirectY 0x0010 0x00 0x01 vectorZp = .ok ⟨0x3100, true⟩ ∧
    resolveAddress .indirectY 0x0086 0x00 0x10 vectorZp = .ok ⟨0x4038, false⟩ ∧
    resolveAddress .indirectY 0x00FF 0x00 0x10 vectorZp = .ok ⟨0x1244, false⟩ ∧
    resolveAddress .indirectY 0x0080 0x00 0xFF vectorZp = .ok ⟨0x02FF, false⟩ := by decide

/-- A31 to A35. -/
theorem test_resolve_no_address :
    resolveAddress .accumulator 0x0005 0 0 vectorZp = .error (.noEffectiveAddress .accumulator) ∧
    resolveAddress .implied 0x0005 0 0 vectorZp = .error (.noEffectiveAddress .implied) ∧
    resolveAddress .immediate 0x0005 0 0 vectorZp = .error (.noEffectiveAddress .immediate) ∧
    resolveAddress .relative 0x0300 0 0 vectorZp = .error (.noEffectiveAddress .relative) ∧
    resolveAddress .indirect 0x0300 0 0 vectorZp = .error (.noEffectiveAddress .indirect) := by decide

/-- The reads of A22, A26 and A14. -/
theorem test_zpReads :
    zpReads .indirectX 0x00FE 0x01 = [0xFF, 0x00] ∧ zpReads .indirectY 0x0010 0x00 = [0x10, 0x11] ∧
    zpReads .absoluteX 0x20FF 0x01 = [] := by decide

/-- Q1, Q2, Q4, Q8. -/
theorem test_adder :
    adderIndexed 0x20FF 0x01 = ⟨0x2100, true⟩ ∧ adderIndexed 0x20FE 0x01 = ⟨0x20FF, false⟩ ∧
    adderIndexed 0xFF80 0x80 = ⟨0x0000, true⟩ ∧ adderIndexed 0x4028 0x10 = ⟨0x4038, false⟩ := by decide

/-- R45: the low byte comes first, one byte is zero-extended. -/
theorem test_operandWord : operandWord [0x00, 0x20] = some 0x2000 ∧ operandWord [0xFC] = some 0x00FC := by decide

/-- R63: a displacement is sign-extended; a 16-bit operand has its low byte first. -/
theorem test_operandReading :
    operandReading .relative [0xFC] = some (.displacement 0xFFFC) ∧
    operandReading .relative [0x7F] = some (.displacement 0x007F) ∧
    operandReading .absolute [0x00, 0x20] = some (.address 0x2000) ∧
    operandReading .zeroPage [0x10] = some (.zeroPageAddress 0x0010) := by decide

/-! ### Steps of the walks (95_test_vectors.md section 6) -/

/-- P1, step 2: a zero-page wrap. -/
theorem test_walk_P1_load :
    walkRow (step { walkAt [0xA2, 0x02, 0xB5, 0xFF, 0x9D, 0x00, 0x20, 0x00] 2 with x := 0x02 }) =
      some (⟨.lda, .zeroPageX, [0xFF], 2⟩, .ok ⟨0x0001, false⟩, 4) := by decide

/-- P1, step 3. -/
theorem test_walk_P1_store :
    walkRow (step { walkAt [0xA2, 0x02, 0xB5, 0xFF, 0x9D, 0x00, 0x20, 0x00] 4 with x := 0x02 }) =
      some (⟨.sta, .absoluteX, [0x00, 0x20], 3⟩, .ok ⟨0x2002, false⟩, 7) := by decide

/-- P1, step 5: the end of the stream. -/
theorem test_walk_P1_end :
    answerOf (step (walkAt [0xA2, 0x02, 0xB5, 0xFF, 0x9D, 0x00, 0x20, 0x00] 8)) =
      some (some (.error (.truncatedInstruction 1 0)), 8) := by decide

/-- P2, steps 2 and 3: both indirect modes. -/
theorem test_walk_P2 :
    walkRow (step { walkAt [0xA0, 0x04, 0xB1, 0x80, 0x81, 0x40, 0x60] 2 with
      x := 0x3F, y := 0x04, mem := [(0x80, 0xFE), (0x81, 0x12)] }) =
      some (⟨.lda, .indirectY, [0x80], 2⟩, .ok ⟨0x1302, true⟩, 4) ∧
    walkRow (step { walkAt [0xA0, 0x04, 0xB1, 0x80, 0x81, 0x40, 0x60] 4 with
      x := 0x3F, y := 0x04, mem := [(0x80, 0xFE), (0x81, 0x12)] }) =
      some (⟨.sta, .indirectX, [0x40], 2⟩, .ok ⟨0xFE00, false⟩, 6) := by decide

/-- P3a, step 2: a branch byte without EXT_MODES. -/
theorem test_walk_P3a :
    answerOf (step (walkAt [0xA9, 0x01, 0xD0, 0xFC, 0x00] 2)) = some (some (.error (.illegalOpcode 0xD0)), 2) := by
  decide

/-- P3b, step 2: the branch with EXT_MODES, not resolved. -/
theorem test_walk_P3b :
    walkRow (step (extWalkAt [0xA9, 0x01, 0xD0, 0xFC, 0x00] 2)) =
      some (⟨.bne, .relative, [0xFC], 2⟩, .error (.noEffectiveAddress .relative), 4) := by decide

/-- P4, steps 1 and 2: JSR resolves as Absolute; a truncated JMP. -/
theorem test_walk_P4 :
    walkRow (step (walkAt [0x20, 0x34, 0x12, 0x4C, 0x00] 0)) =
      some (⟨.jsr, .absolute, [0x34, 0x12], 3⟩, .ok ⟨0x1234, false⟩, 3) ∧
    answerOf (step (walkAt [0x20, 0x34, 0x12, 0x4C, 0x00] 3)) =
      some (some (.error (.truncatedInstruction 2 1)), 3) := by decide

/-! ### Placing an instruction where a step fetches -/

theorem test_withFetchWord_runs :
    step (State.reset.withFetchWord 16 0x2AA9) = exec (.ldaImm 0x2A) (State.reset.withFetchWord 16 0x2AA9) := by rfl

/-- An extension row runs on the block that has it. -/
theorem test_withFetchWord_extension :
    walkRow (step (State.reset.withFetchWord 16 0xFCD0)) =
      some (⟨.bne, .relative, [0xFC], 2⟩, .error (.noEffectiveAddress .relative), 2) := by decide

theorem test_withFetchWord_keeps_extModes :
    (State.reset.withFetchWord 16 0x2AA9).extModes = false ∧ (State.reset.withFetchWord 8 0xFF).extModes = false := by
  decide

/-! ### Ports and refusals (95_test_vectors.md section 7) -/

/-- M1 and M2. -/
theorem test_port_refuses_modeCode :
    step (asking (.resolveAddress 13 0 0 0)) = .refused (.unnamedModeCode 13) ∧
    step (asking (.lookupOpcode [0x4A, 0x4D, 0x50] 12)) = .refused (.unnamedModeCode 12) := ⟨rfl, rfl⟩

/-- M3. -/
theorem test_port_refuses_mnemonicIndex :
    step (asking (.mnemonicName 56)) = .refused (.unnamedMnemonicIndex 56) := by rfl

/-- A port request to a block whose table failed the check. -/
theorem step_failed {ext : Bool} {L : List Entry} {e : Entry} (h : firstDuplicate [] [] L = some e)
    (r : Request) : step { powerOn ext L with pending := [r] } = .refused .constructionFailed := by
  simp [step, servePort, State.popRequest, powerOn, verdictOf, h]

/-- M4. -/
theorem test_port_refuses_failed_block :
    step { collidedState with pending := [.lookupInstruction 0xEA] } = .refused .constructionFailed :=
  step_failed collision_found _

/-- A22 at the port, with its reads; X10 at the port. -/
theorem test_port_answers :
    answerOf (step (asking (.resolveAddress 9 0x00FE 0x01 0x00))) =
      some (some (.address ⟨0x1234, false⟩ [0xFF, 0x00]), 0) ∧
    answerOf (step (asking (.decode [0xFF] 0))) = some (some (.error (.illegalOpcode 0xFF)), 0) := by decide

/-! ### The caller's memory -/

theorem test_memWrite_default_removes : memWrite vectorMem 0x10 0x00 = vectorMem.erase (0x10, 0xFF) := by decide

theorem test_memWrite_inserts : memWrite [(0x10, 0xFF)] 0x05 0x01 = [(0x05, 0x01), (0x10, 0xFF)] := by decide

theorem test_memWf_refuses :
    memWf [(0x10, 0x00)] = false ∧ memWf [(0x11, 0x01), (0x10, 0x01)] = false ∧ memWf [(0x10000, 0x01)] = false := by
  decide

/-! ### Witnesses: the hypotheses of each statement, met together, clause by clause -/

/-- Both opcode maps pass the construction check. -/
theorem romFor_builds (ext : Bool) : build (romFor ext) = .ok (romFor ext) :=
  build_eq_ok.mpr ⟨romFor_passes ext, rfl⟩

theorem witness_DecodeOfEncodeIsTheInstruction :
    (Instr.jmpInd 0xFF 0xFF).wellFormed true = true ∧ (Instr.ldaImm 0x00).wellFormed false = true := by decide

theorem witness_EncodeThenDecodeRoundTrips :
    (build (romFor true) = .ok (romFor true) ∧ build (romFor false) = .ok (romFor false)) ∧
    (⟨.jmp, .indirect, 0x6C⟩ : Entry) ∈ romFor true ∧
    [0x00, 0x03].length = (Entry.mode ⟨.jmp, .indirect, 0x6C⟩).operandSize ∧
    (⟨.brk, .implied, 0x00⟩ : Entry) ∈ romFor false ∧
    ([] : Bytes).length = (Entry.mode ⟨.brk, .implied, 0x00⟩).operandSize :=
  ⟨⟨romFor_builds true, romFor_builds false⟩, by decide⟩

theorem witness_LookupsAreInverse :
    build (romFor false) = .ok (romFor false) ∧ (⟨.brk, .implied, 0x00⟩ : Entry) ∈ romFor false ∧
    (⟨.inc, .absoluteX, 0xFE⟩ : Entry) ∈ romFor false := ⟨romFor_builds false, by decide⟩

theorem witness_OpcodeMapIsInjective :
    (⟨.brk, .implied, 0x00⟩ : Entry) ∈ romFor false ∧ (⟨.jmp, .indirect, 0x6C⟩ : Entry) ∈ romFor true := by decide

/-- The three answers: a byte, a mode the mnemonic lacks, a mnemonic without EXT_MODES. -/
theorem witness_OpcodeMapIsTheMnemonicRules :
    ruleOpcode false .brk .implied = some 0x00 ∧ ruleOpcode false .jmp .indirect = none ∧
    Mode.all.any (fun k => (ruleOpcode false .jmp k).isSome) = true ∧
    ruleOpcode false .bne .relative = none ∧
    Mode.all.any (fun k => (ruleOpcode false .bne k).isSome) = false := by decide

theorem witness_IllegalBytesAreTheListed :
    (0x02 : Byte) ∈ illegalBytes ∧ (0xFF : Byte) ∈ illegalBytes ∧
    (⟨.bpl, .relative, 0x10⟩ : Entry) ∈ extensionRows ∧ (⟨.jmp, .indirect, 0x6C⟩ : Entry) ∈ extensionRows := by decide

/-- A passing table, one that fails by its pair (K2) and one that fails by its byte (K3). -/
theorem witness_ConstructionFindsTheFirstDuplicate :
    build (romFor false) = .ok (romFor false) ∧
    build (opcodeTable ++ [⟨.cpx, .immediate, 0xC0⟩]) =
      .error (.duplicateTableEntry ⟨.cpx, .immediate, 0xC0⟩) ∧
    build (opcodeTable ++ [⟨.nop, .immediate, 0xEA⟩]) =
      .error (.duplicateTableEntry ⟨.nop, .immediate, 0xEA⟩) :=
  ⟨romFor_builds false, build_eq_error collision_found, build_eq_error duplicate_byte_found⟩

theorem witness_FailedConstructionRefusesEveryRequest :
    collidedState.Checked ∧ build collidedState.opcodeRom ≠ .ok collidedState.opcodeRom :=
  ⟨by simp only [State.Checked, collidedState, powerOn],
    fun hc => nomatch (build_eq_error collision_found).symm.trans hc⟩

/-- An entry's pair, a pair without an entry, a text that is no mnemonic. -/
theorem witness_LookupOpcodeSortsItsErrors :
    build (romFor false) = .ok (romFor false) ∧ lookupOpcode (romFor false) (Mnemonic.name .lda) .immediate = .ok 0xA9 ∧
    lookupOpcode (romFor false) (Mnemonic.name .jmp) .indirect =
      .error (.unsupportedAddressingMode (Mnemonic.name .jmp) .indirect) ∧
    lookupOpcode (romFor false) [] .implied = .error (.unknownMnemonic []) := ⟨romFor_builds false, by decide⟩

theorem witness_LookupInstructionReadsTheEntry :
    build (romFor false) = .ok (romFor false) ∧ lookupInstruction (romFor false) 0xFE = .ok (.inc, .absoluteX) ∧
    lookupInstruction (romFor false) 0xFF = .error (.illegalOpcode 0xFF) := ⟨romFor_builds false, by decide⟩

theorem witness_RomWordHoldsTheEntry :
    build (romFor true) = .ok (romFor true) ∧ (⟨.jmp, .indirect, 0x6C⟩ : Entry) ∈ romFor true ∧
    (romFor true).all (fun e => e.opcode != 0xFF) = true := ⟨romFor_builds true, by decide⟩

/-- A mnemonic and itself, the first and the last; its name's bytes. -/
theorem witness_NamesAreDistinctUppercaseTexts :
    mnemonicName .adc = mnemonicName .adc ∧ mnemonicName .tya = mnemonicName .tya ∧
    (0x41 : Byte) ∈ Mnemonic.name .adc := by decide

/-- The codes at the edges: 10, 11, 12 and 13; the indexes 55 and 56. -/
theorem witness_RawCodesNameWhatTheyShould :
    (false || !Mode.indirectY.isExt) = true ∧ (true || !Mode.indirect.isExt) = true ∧
    Mode.ofCode false 10 = some .indirectY ∧ Mode.ofCode false 11 = none ∧ Mode.ofCode true 12 = some .indirect ∧
    Mode.ofCode true 13 = none ∧ Mnemonic.ofIndex 55 = some .tya ∧ Mnemonic.ofIndex 56 = none := by decide

/-- Bytes, a lookup error and a size error. -/
theorem witness_EncodeChecksLookupThenSize :
    encode (romFor false) (Mnemonic.name .rts) .implied [] = .ok [0x60] ∧
    encode (romFor false) (Mnemonic.name .sta) .zeroPageY [0x10] =
      .error (.unsupportedAddressingMode (Mnemonic.name .sta) .zeroPageY) ∧
    encode (romFor false) (Mnemonic.name .rts) .implied [0x00] = .error (.operandSizeMismatch 0 1) := by decide

/-- Cursor at the end; an illegal byte; one operand byte short; exactly enough. -/
theorem witness_DecodeChecksCursorOpcodeThenLength :
    ([0xEA] : Bytes).length ≤ 1 ∧
    (([0xFF] : Bytes)[0]? = some 0xFF ∧ lookupInstruction (romFor false) 0xFF = .error (.illegalOpcode 0xFF)) ∧
    (([0xAD, 0x00] : Bytes)[0]? = some 0xAD ∧ lookupInstruction (romFor false) 0xAD = .ok (.lda, .absolute) ∧
      ([0xAD, 0x00] : Bytes).length - 0 - 1 < Mode.absolute.operandSize) ∧
    (([0xAD, 0x00, 0x20] : Bytes)[0]? = some 0xAD ∧
      Mode.absolute.operandSize ≤ ([0xAD, 0x00, 0x20] : Bytes).length - 0 - 1) := by decide

/-- Both pointer premises at the wrap: the pointer's low byte at 0xFF. -/
theorem witness_IndirectModesReadTheirPointer :
    (0xFF : Byte).toNat = ((0x00FE : Word).toNat + (0x01 : Byte).toNat) % 256 ∧
    (0xFF : Byte).toNat = (0x12FF : Word).toNat % 256 := by decide

/-- The first and the second case. -/
theorem witness_OtherModesHaveNoAddress :
    (Mode.relative = .accumulator ∨ Mode.relative = .implied ∨ Mode.relative = .immediate ∨
      Mode.relative = .relative ∨ Mode.relative = .indirect) ∧
    ¬ (Mode.zeroPage = .accumulator ∨ Mode.zeroPage = .implied ∨ Mode.zeroPage = .immediate ∨
      Mode.zeroPage = .relative ∨ Mode.zeroPage = .indirect) := by decide

/-- An answer of every mode the clauses name, at a carry of exactly 256 in the indexed ones. -/
theorem witness_PageCrossIsAnIndexCarry :
    resolveAddress .absoluteX 0x20FF 0x01 0x00 vectorZp = .ok ⟨0x2100, true⟩ ∧
    resolveAddress .absoluteY 0x12F0 0x00 0x10 vectorZp = .ok ⟨0x1300, true⟩ ∧
    resolveAddress .indirectY 0x0010 0x00 0x01 vectorZp = .ok ⟨0x3100, true⟩ ∧
    resolveAddress .zeroPageX 0x00FF 0x01 0x00 vectorZp = .ok ⟨0x0000, false⟩ := by decide

/-- Two memories that agree on the two reads issued and differ elsewhere; a mode of each kind. -/
theorem witness_ResolverDependsOnItsReadsOnly :
    (∀ a ∈ zpReads .indirectX 0x00FE 0x01,
      vectorZp a = State.zpRead { vectorState with mem := [(0x00, 0x12), (0xFF, 0x34)] } a) ∧
    vectorZp 0x10 ≠ State.zpRead { vectorState with mem := [(0x00, 0x12), (0xFF, 0x34)] } 0x10 ∧
    (Mode.indirectY = .indirectX ∨ Mode.indirectY = .indirectY) ∧
    ¬ (Mode.absolute = .indirectX ∨ Mode.absolute = .indirectY) := by decide

/-- A mode for each clause, and two operands with one low byte. -/
theorem witness_UnnamedInputsAreIgnored :
    (Mode.absoluteX ≠ .zeroPageY ∧ Mode.absoluteX ≠ .absoluteY ∧ Mode.absoluteX ≠ .indirectY) ∧
    (Mode.absoluteY ≠ .zeroPageX ∧ Mode.absoluteY ≠ .absoluteX ∧ Mode.absoluteY ≠ .indirectX) ∧
    (Mode.absolute ≠ .indirectX ∧ Mode.absolute ≠ .indirectY) ∧
    (Mode.zeroPage.operandSize = 1 ∧ (0x1234 : Word).toNat % 256 = (0x0034 : Word).toNat % 256) := by decide

theorem witness_WorkedResolverExamples : vectorZp 0x10 = 0xFF ∧ vectorZp 0x11 = 0x30 := by decide

/-- The verdict of the default block is the one its OPCODE_ROM gets. -/
theorem walkAt_checked (stream : Bytes) (cursor : Nat) : (walkAt stream cursor).Checked :=
  (verdictOf_eq_passed.mpr opcodeTable_passes).symm

theorem witness_StepRunsTheDecodedInstruction :
    (walkAt [0xA9, 0x2A] 0).Walking ∧ (walkAt [0xA9, 0x2A] 0).Checked ∧
    decode (walkAt [0xA9, 0x2A] 0).rom (walkAt [0xA9, 0x2A] 0).stream 0 = .ok ⟨.lda, .immediate, [0x2A], 2⟩ ∧
    Instr.ofTriple .lda .immediate [0x2A] = some (.ldaImm 0x2A) := ⟨by decide, walkAt_checked _ _, by decide⟩

/-- A stream that decodes and one that does not. -/
theorem witness_StepIsDecodeThenResolve :
    ((walkAt [0xEA] 0).Checked ∧ (walkAt [0xEA] 0).Walking ∧
      decode (walkAt [0xEA] 0).rom [0xEA] 0 = .ok ⟨.nop, .implied, [], 1⟩) ∧
    ((walkAt [0xEA] 1).Checked ∧ (walkAt [0xEA] 1).Walking ∧
      decode (walkAt [0xEA] 1).rom [0xEA] 1 = .error (.truncatedInstruction 1 0)) :=
  ⟨⟨walkAt_checked _ _, by decide⟩, walkAt_checked _ _, by decide⟩

/-- An error of the walk and one of a port. -/
theorem witness_ErrorAnswersChangeNothingElse :
    (∃ t e, step (walkAt [] 0) = .next t ∧ t.response = some (.error e)) ∧
    (∃ t e, step (asking (.lookupInstruction 0xFF)) = .next t ∧ t.response = some (.error e)) :=
  ⟨⟨_, _, rfl, rfl⟩, ⟨_, _, rfl, rfl⟩⟩

/-- An instruction answered by a report, and one answered by an error. -/
theorem witness_InstructionFrame :
    (∃ t r, exec (.staAbs 0x00 0x20) vectorState = .next t ∧ t.response = some (.instruction r)) ∧
    (∃ t e, exec (.bneRel 0xFC) vectorState = .next t ∧ t.response = some (.error e)) :=
  ⟨⟨_, _, rfl, rfl⟩, ⟨_, _, rfl, rfl⟩⟩

theorem witness_NoStepWritesTableInputsOrMemory : ∃ t, step (walkAt [0x8D, 0x00, 0x20] 0) = .next t := ⟨_, rfl⟩

theorem witness_StepKeepsInvariant :
    (walkAt [0xEA] 0).Inv ∧ ∃ t, step (walkAt [0xEA] 0) = .next t :=
  ⟨⟨walkAt_checked _ _, by decide, by decide, fun _ h => nomatch h⟩, _, rfl⟩

/-- A step that answers, and a construction that faults. -/
theorem witness_NoRequestRaisesDuplicateTableEntry :
    (∃ t, step (asking (.lookupInstruction 0xEA)) = .next t) ∧
    ∃ f, construct false (opcodeTable ++ [⟨.cpx, .immediate, 0xC0⟩]) = .fault f :=
  ⟨⟨_, rfl⟩, _, test_construct_collision⟩

theorem witness_RequestsAreIndependent :
    (∃ t u, servePort (.lookupInstruction 0xEA) vectorState = .next t ∧
      servePort (.decode [0xFF] 0) vectorState = .next u) ∧
    ∃ t u, exec .nopImp vectorState = .next t ∧ servePort (.lookupInstruction 0xEA) vectorState = .next u :=
  ⟨⟨_, _, rfl, rfl⟩, _, _, rfl, rfl⟩

theorem witness_RepeatedErrorsRepeat :
    ((walkAt [0xFF] 0).Walking ∧ ∃ t e, step (walkAt [0xFF] 0) = .next t ∧ t.response = some (.error e)) ∧
    ∃ t, servePort (.lookupInstruction 0xFF) vectorState = .next t :=
  ⟨⟨by decide, _, _, rfl, rfl⟩, _, rfl⟩

theorem witness_WalkReachesAnErrorAtTheEnd : (walkAt [0xEA] 0).Walking := by decide

theorem witness_CursorMovesByBytesConsumed :
    (walkAt [0x4C, 0x00, 0x03] 0).Walking ∧
    ∃ t r, step (walkAt [0x4C, 0x00, 0x03] 0) = .next t ∧ t.response = some (.instruction r) :=
  ⟨by decide, _, _, rfl, rfl⟩

theorem witness_ServingBlockAlwaysAnswersInstructions : State.reset.Serving ∧ State.reset.pending = [] := by decide

/-- The premise of every completion statement, with EXT_MODES off. -/
theorem witness_InstructionsAreDelivered : State.reset.Standard := by decide

theorem witness_ArithmeticInstructionsAreDelivered : vectorState.Standard := by decide

theorem witness_LogicInstructionsAreDelivered : vectorState.Standard := by decide

theorem witness_ShiftInstructionsAreDelivered : vectorState.Standard := by decide

theorem witness_ComparisonsAreDelivered : vectorState.Standard := by decide

theorem witness_IncrementsAndDecrementsAreDelivered : vectorState.Standard := by decide

theorem witness_LoadsAreDelivered : vectorState.Standard := by decide

theorem witness_StoresAreDelivered : vectorState.Standard := by decide

theorem witness_TransfersAreDelivered : vectorState.Standard := by decide

theorem witness_StackInstructionsAreDelivered : vectorState.Standard := by decide

theorem witness_StatusFlagInstructionsAreDelivered : vectorState.Standard := by decide

theorem witness_BranchesAreDeliveredWithExtModes :
    (extWalkAt [0xD0, 0xFC] 0).Standard ∧ (extWalkAt [0xD0, 0xFC] 0).extModes = true := by decide

/-- Without EXT_MODES, and with it for the last clause. -/
theorem witness_JumpsReturnsAndNopAreDelivered :
    State.reset.Standard ∧ (extWalkAt [] 0).Standard ∧ (extWalkAt [] 0).extModes = true := by decide

/-- The premises of both clauses, the second with the first and the last row. -/
theorem witness_ExtensionFormsWithoutExtModes :
    (State.reset.Standard ∧ State.reset.extModes = false) ∧
    ((walkAt [0x10] 0).Standard ∧ (walkAt [0x10] 0).extModes = false ∧ (walkAt [0x10] 0).pending = [] ∧
      (⟨.bpl, .relative, 0x10⟩ : Entry) ∈ extensionRows ∧ (walkAt [0x10] 0).stream[0]? = some 0x10) ∧
    ((walkAt [0xEA, 0x6C] 1).pending = [] ∧ (⟨.jmp, .indirect, 0x6C⟩ : Entry) ∈ extensionRows ∧
      (walkAt [0xEA, 0x6C] 1).stream[1]? = some 0x6C) := by decide

/-- One request per port. -/
theorem witness_PortsAnswerTheirUnits :
    vectorState.Serving ∧ Mode.ofCode vectorState.extModes 2 = some .immediate ∧
    Mode.ofCode vectorState.extModes 10 = some .indirectY ∧ Mnemonic.ofIndex 55 = some .tya ∧
    (asking (.lookupOpcode (Mnemonic.name .lda) 2)).pending = [.lookupOpcode (Mnemonic.name .lda) 2] ∧
    (asking (.lookupInstruction 0xFF)).pending = [.lookupInstruction 0xFF] ∧
    (asking (.encode (Mnemonic.name .lda) 2 [0x00])).pending = [.encode (Mnemonic.name .lda) 2 [0x00]] ∧
    (asking (.decode [] 0)).pending = [.decode [] 0] ∧
    (asking (.resolveAddress 10 0x00FF 0 0x10)).pending = [.resolveAddress 10 0x00FF 0 0x10] ∧
    (asking (.mnemonicName 55)).pending = [.mnemonicName 55] := by decide

/-- The codes 13 and, without EXT_MODES, 11; the indexes 56 and 63. -/
theorem witness_RawCodesNamingNothingAreRefused :
    vectorState.Serving ∧ 13 ≤ (13 : BitVec 4).toNat ∧ (vectorState.extModes = false ∧ 11 ≤ (11 : BitVec 4).toNat) ∧
    56 ≤ (56 : BitVec 6).toNat ∧ 56 ≤ (63 : BitVec 6).toNat ∧
    (asking (.lookupOpcode [] 13)).pending = [.lookupOpcode [] 13] ∧
    (asking (.encode [] 11 [])).pending = [.encode [] 11 []] ∧
    (asking (.resolveAddress 13 0 0 0)).pending = [.resolveAddress 13 0 0 0] ∧
    (asking (.mnemonicName 56)).pending = [.mnemonicName 56] := by decide

/-- A canonical memory, and both cases of the read: the written address and another one. -/
theorem witness_CallerMemoryReadsWhatWasWritten :
    memWf vectorState.mem = true ∧ memRead (memWrite vectorState.mem 0x10 0x00) 0x10 = 0x00 ∧
    memRead (memWrite vectorState.mem 0x10 0x00) 0x11 = 0x30 := by decide

end Sys2Proof.Tests
end

section
/-! SUPPORT. The construction check decides the two kinds of duplicates, and names the first entry that has one (R84). -/

namespace Sys2Proof.Machine

/-- A list passes the check exactly when no pair and no opcode byte stands twice (R84). -/
theorem passes_iff_nodup {L : List Entry} :
    Passes L ↔ (L.map (fun e => (e.mnemonic, e.mode))).Nodup ∧ (L.map (·.opcode)).Nodup := by
  rw [passes_iff_pairwise, List.pairwise_and_iff, List.Nodup, List.Nodup, List.pairwise_map, List.pairwise_map]

/-- What the check reports splits the list: what stands before it passes, and it repeats a pair or a byte. -/
theorem firstDuplicate_eq_some {L : List Entry} {e : Entry} {ps : List (Mnemonic × Mode)} {bs : List Byte}
    (h : firstDuplicate ps bs L = some e) :
    ∃ before after, L = before ++ e :: after ∧ firstDuplicate ps bs before = none ∧
      ((e.mnemonic, e.mode) ∈ ps ++ before.map (fun f => (f.mnemonic, f.mode)) ∨
        e.opcode ∈ bs ++ before.map (·.opcode)) := by
  induction L generalizing ps bs with
  | nil => cases h
  | cons f L ih =>
    rw [firstDuplicate] at h
    split at h
    · next hf =>
      obtain rfl : f = e := Option.some.inj h
      exact ⟨[], L, rfl, rfl, by simpa using hf⟩
    · next hf =>
      obtain ⟨before, after, rfl, hb, he⟩ := ih h
      refine ⟨f :: before, after, rfl, by rw [firstDuplicate, if_neg hf, hb], ?_⟩
      simp only [List.map_cons, List.mem_append, List.mem_cons] at he ⊢
      tauto

/-- The first offender of a list: the entry whose pair or byte an earlier one has, with a passing list before it (R84). -/
theorem firstDuplicate_eq_some_iff {L : List Entry} {e : Entry} :
    firstDuplicate [] [] L = some e ↔
      ∃ before after, L = before ++ e :: after ∧ Passes before ∧
        ((e.mnemonic, e.mode) ∈ before.map (fun f => (f.mnemonic, f.mode)) ∨ e.opcode ∈ before.map (·.opcode)) := by
  constructor
  · exact firstDuplicate_eq_some
  · rintro ⟨before, after, rfl, hb, he⟩
    exact firstDuplicate_append hb he

theorem build_eq_error_iff {L : List Entry} {e : Entry} :
    build L = .error (.duplicateTableEntry e) ↔ firstDuplicate [] [] L = some e := by
  unfold build
  cases firstDuplicate [] [] L <;> simp

theorem construct_eq_fault_iff {ext : Bool} {L : List Entry} {e : Entry} :
    construct ext L = .fault (.duplicateTableEntry e) ↔ firstDuplicate [] [] L = some e := by
  unfold construct
  cases firstDuplicate [] [] L <;> simp

/-- Settles O7: `build` and `construct` both read off `firstDuplicate`, whose two answers are characterised above. -/
theorem constructionFindsTheFirstDuplicate : Obligations.ConstructionFindsTheFirstDuplicate := by
  refine ⟨fun L => ?_, fun L e => ?_, fun ext L e => ?_⟩
  · rw [build_eq_ok, and_iff_left rfl, passes_iff_nodup]
  · simp only [build_eq_error_iff, firstDuplicate_eq_some_iff, passes_iff_nodup, List.mem_map, Prod.mk.injEq, and_assoc]
  · rw [construct_eq_fault_iff, build_eq_error_iff]

end Sys2Proof.Machine
end

section
/-! SUPPORT. A block whose construction failed refuses whatever it is asked (R235, R236). -/

namespace Sys2Proof.Machine

/-- A block whose verdict is R84's and whose list does not pass holds a failed verdict. -/
theorem State.Checked.failed {s : State} (h : s.Checked) (hn : ¬ Passes s.opcodeRom) :
    ∃ e, s.construction = .failed e := by
  cases hc : s.construction with
  | passed => exact absurd (verdictOf_eq_passed.mp (h.symm.trans hc)) hn
  | failed e => exact ⟨e, rfl⟩

section Failed

variable {s : State} {e : Entry} (h : s.construction = .failed e)
include h

theorem serve_of_failed (m : Mnemonic) (mode : Mode) (ops : Bytes) :
    serve m mode ops s = .refused .constructionFailed := by
  simp only [serve, h]

theorem servePort_of_failed (r : Request) : servePort r s = .refused .constructionFailed := by
  simp only [servePort, h]

theorem exec_of_failed (i : Instr) : exec i s = .refused .constructionFailed := by
  rw [exec_eq_serve, serve_of_failed h]

theorem step_of_failed : step s = .refused .constructionFailed := by
  have hns : ¬ s.Serving := by simp [State.Serving, h]
  rcases step_cases s with ⟨r, rest, -, hr⟩ | ⟨-, -, -, hr⟩ | ⟨hw, -⟩ | ⟨hw, -⟩
  · rw [hr, servePort_of_failed (s := s.popRequest) h]
  · exact hr
  · exact absurd hw.1 hns
  · exact absurd hw.1 hns

end Failed

/-- The power-on block's verdict is R84's, whatever its parameters (R260, R262). -/
theorem powerOn_checked (ext : Bool) (L : List Entry) : (powerOn ext L).Checked := rfl

/-- Settles O9: the verdict of a failing list is a failed one, and every request looks at the verdict first. -/
theorem failedConstructionRefusesEveryRequest : Obligations.FailedConstructionRefusesEveryRequest := by
  refine ⟨fun s hs hb => ?_, fun ext L => ⟨powerOn_checked ext L, rfl⟩⟩
  obtain ⟨e, he⟩ := hs.failed fun hp => hb (build_eq_ok.mpr ⟨hp, rfl⟩)
  exact ⟨step_of_failed he, servePort_of_failed he, exec_of_failed he⟩

end Sys2Proof.Machine
end

section
/-! SUPPORT. Without EXT_MODES: what the lookups answer for the nine extension rows (R69), and how a lookup's error
becomes the answer of an instruction and of a walk step (R231). -/

namespace Sys2Proof.Machine

/-- An error of the encode-direction lookup is the whole answer of an instruction (R102, R231). -/
theorem exec_of_lookupOpcode_error {s : State} (hs : s.Serving) {i : Instr} {m : Mnemonic} {mode : Mode}
    {e : BlockError} (hm : i.mnemonic = m) (hd : i.mode = mode) (hl : lookupOpcode s.rom m.name mode = .error e) :
    exec i s = .next (s.answersError e) := by
  rw [exec_eq_serve, hm, hd]
  simp only [serve, hs, report, encode, hl, State.answersError]

/-- An illegal byte at the cursor is a decoding error, whatever follows it (R151). -/
theorem decode_of_lookupInstruction_error {rom : List Entry} {bytes : Bytes} {cursor : Nat} {b : Byte} {e : BlockError}
    (hb : bytes[cursor]? = some b) (hl : lookupInstruction rom b = .error e) : decode rom bytes cursor = .error e := by
  obtain ⟨hlt, rfl⟩ := List.getElem?_eq_some_iff.mp hb
  simp only [decode, List.drop_eq_getElem_cons hlt, hl]

/-- A decoding error is the whole answer of a walk step (R150, R231). -/
theorem step_of_decode_error {s : State} (hs : s.Walking) {e : BlockError}
    (hd : decode s.rom s.stream s.cursor = .error e) : step s = .next (s.answersError e) := by
  obtain ⟨hc, hp⟩ := hs
  simp only [step, hp, fetch, hc, hd, State.answersError]

/-- The table of a standard block without EXT_MODES. -/
theorem State.Standard.rom_eq_false {s : State} (hs : s.Standard) (hx : s.extModes = false) : s.rom = romFor false := by
  rw [hs.rom_eq, hx]

/-- R69: the listed rows are rows of the opcode map, in the two extension modes. -/
theorem mem_opcodeTable_of_mem_extensionRows :
    ∀ e ∈ extensionRows, e ∈ opcodeTable ∧ e.mode.isExt = true := by decide

/-- P3a: without EXT_MODES an extension row's byte is illegal, since its only row of the opcode map is absent. -/
theorem lookupInstruction_of_mem_extensionRows {e : Entry} (he : e ∈ extensionRows) :
    lookupInstruction (romFor false) e.opcode = .error (.illegalOpcode e.opcode) := by
  obtain ⟨hmem, hext⟩ := mem_opcodeTable_of_mem_extensionRows e he
  rcases lookupInstruction_cases (romFor false) e.opcode with ⟨-, hl⟩ | ⟨f, hf, ho, -⟩
  · exact hl
  · obtain ⟨hft, hfx⟩ := mem_tableFor.mp hf
    obtain rfl : f = e := opcodeTable_passes.eq_of_opcode hft hmem ho
    simp [hext] at hfx

/-- T7, E13: a mnemonic whose only rows are branches is no mnemonic of the block without EXT_MODES (R80). -/
theorem lookupOpcode_branch_without_ext : ∀ e ∈ extensionRows, e.mode = .relative →
    lookupOpcode (romFor false) e.mnemonic.name .relative = .error (.unknownMnemonic e.mnemonic.name) := by decide

/-- E16: JMP is defined by its Absolute row, so only its Indirect mode is unsupported (R81, R187). -/
theorem lookupOpcode_jmpIndirect_without_ext :
    lookupOpcode (romFor false) (Mnemonic.name .jmp) .indirect =
      .error (.unsupportedAddressingMode (Mnemonic.name .jmp) .indirect) := by decide

/-- A branch, by its row of R69, is answered by UnknownMnemonic in a standard block without EXT_MODES. -/
theorem exec_branch_without_ext {s : State} (hs : s.Standard) (hx : s.extModes = false) {i : Instr} (e : Entry)
    (he : e ∈ extensionRows ∧ e.mode = .relative) (hm : i.mnemonic = e.mnemonic) (hd : i.mode = .relative) :
    exec i s = .next (s.answersError (.unknownMnemonic e.mnemonic.name)) :=
  exec_of_lookupOpcode_error hs.1 hm hd <| by
    rw [hs.rom_eq_false hx, lookupOpcode_branch_without_ext e he.1 he.2]

/-- Settles O54: the nine forms by the lookup of their pair, their bytes by the lookup of the byte. -/
theorem extensionFormsWithoutExtModes : Obligations.ExtensionFormsWithoutExtModes := by
  refine ⟨fun s n lo hi hs hx => ⟨?_, ?_, ?_, ?_, ?_, ?_, ?_, ?_, ?_⟩, fun s e hs hx hp he hb => ?_⟩
  · exact exec_branch_without_ext hs hx ⟨.bcc, .relative, 0x90⟩ (by decide) rfl rfl
  · exact exec_branch_without_ext hs hx ⟨.bcs, .relative, 0xB0⟩ (by decide) rfl rfl
  · exact exec_branch_without_ext hs hx ⟨.beq, .relative, 0xF0⟩ (by decide) rfl rfl
  · exact exec_branch_without_ext hs hx ⟨.bmi, .relative, 0x30⟩ (by decide) rfl rfl
  · exact exec_branch_without_ext hs hx ⟨.bne, .relative, 0xD0⟩ (by decide) rfl rfl
  · exact exec_branch_without_ext hs hx ⟨.bpl, .relative, 0x10⟩ (by decide) rfl rfl
  · exact exec_branch_without_ext hs hx ⟨.bvc, .relative, 0x50⟩ (by decide) rfl rfl
  · exact exec_branch_without_ext hs hx ⟨.bvs, .relative, 0x70⟩ (by decide) rfl rfl
  · have hl : lookupOpcode s.rom (Mnemonic.name .jmp) .indirect =
        .error (.unsupportedAddressingMode (Mnemonic.name .jmp) .indirect) := by
      rw [hs.rom_eq_false hx, lookupOpcode_jmpIndirect_without_ext]
    exact exec_of_lookupOpcode_error hs.1 rfl rfl hl
  · have hl : lookupInstruction s.rom e.opcode = .error (.illegalOpcode e.opcode) := by
      rw [hs.rom_eq_false hx, lookupInstruction_of_mem_extensionRows he]
    exact step_of_decode_error ⟨hs.1, hp⟩ (decode_of_lookupInstruction_error hb hl)

end Sys2Proof.Machine
end

section
/-! SUPPORT. The reset state (R34, R260). -/

namespace Sys2Proof.Machine

/-- R66, R69: the opcode map without the nine extension rows has 142 entries. -/
theorem romFor_false_length : (romFor false).length = 142 := by rfl

/-- Settles O58: the fields of the reset state, the count of the default ROM's entries, and a memory that lists nothing. -/
theorem resetIsTheDefaultBlock : Obligations.ResetIsTheDefaultBlock := by
  have hrom : State.reset.rom.length = 142 := by rw [State.reset_rom, romFor_false_length]
  have hmem : ∀ a : Word, memRead State.reset.mem a = 0x00 := memRead_nil
  exact ⟨rfl, rfl, rfl, hrom, rfl, rfl, rfl, rfl, hmem, rfl, rfl⟩

end Sys2Proof.Machine
end

section
/-! SUPPORT. The numbers and names of modes and mnemonics against the tables of R22 and R23, and the raw numbers that
name nothing (D16). -/

namespace Sys2Proof

/-- R23: a name's three bytes are letters from A to Z. -/
theorem Mnemonic.name_uppercase {m : Mnemonic} {b : Byte} (hb : b ∈ m.name) : 0x41 ≤ b.toNat ∧ b.toNat ≤ 0x5A := by
  have hall : m.name.all (fun b => decide (0x41 ≤ b.toNat ∧ b.toNat ≤ 0x5A)) = true := by cases m <;> rfl
  exact of_decide_eq_true (List.all_eq_true.mp hall b hb)

/-- R22: a 4-bit code names nothing past the last code of the block's modes. -/
theorem Mode.ofCode_eq_none_iff (ext : Bool) (c : BitVec 4) :
    Mode.ofCode ext c = none ↔ 13 ≤ c.toNat ∨ (ext = false ∧ 11 ≤ c.toNat) := by
  revert ext c
  decide

/-- R23, R87: a 6-bit index names nothing past the last mnemonic's. -/
theorem Mnemonic.ofIndex_eq_none_iff (i : BitVec 6) : Mnemonic.ofIndex i = none ↔ 56 ≤ i.toNat := by
  revert i
  decide

/-- R22: a mode that the block has is the one its code names there. -/
theorem Mode.ofCode_code_of_exists {ext : Bool} {mode : Mode} (h : (ext || !mode.isExt) = true) :
    Mode.ofCode ext mode.code = some mode := by
  revert h
  cases ext <;> cases mode <;> decide

/-- R66: with EXT_MODES the table is the whole opcode map. -/
theorem romFor_true : romFor true = opcodeTable := tableFor_true opcodeTable

theorem opcodeTable_length : opcodeTable.length = 151 := by rfl

/-- R23: the entries a mnemonic has in the opcode map without the extension modes. -/
theorem romFor_false_countP : ∀ m ∈ Mnemonic.all,
    (romFor false).countP (fun e => e.mnemonic == m) = (Machine.mnemonicRow m).entries := by decide +kernel

/-- R23: the entries a mnemonic has in the whole opcode map. -/
theorem romFor_true_countP : ∀ m ∈ Mnemonic.all,
    (romFor true).countP (fun e => e.mnemonic == m) = (Machine.mnemonicRow m).extEntries := by decide +kernel

/-- R23: the name output is the row's three bytes. -/
theorem mnemonicName_eq_ascii (m : Mnemonic) : mnemonicName m = (Machine.mnemonicRow m).ascii := by
  cases m <;> rfl

namespace Machine

/-- Settles O13: the rows are compared name by name, and a text is its three bytes, so names differ as texts do. -/
theorem namesAreDistinctUppercaseTexts : Obligations.NamesAreDistinctUppercaseTexts := by
  refine ⟨fun m => ⟨mnemonicName_eq_ascii m, ?_, romFor_false_countP m m.mem_all, romFor_true_countP m m.mem_all⟩,
    fun m => ⟨rfl, fun b => Mnemonic.name_uppercase⟩, fun m n h => ?_, romFor_false_length, ?_⟩
  · rw [Mnemonic.name, mnemonicName_eq_ascii]
  · exact Mnemonic.name_injective (by rw [Mnemonic.name, Mnemonic.name, h])
  · rw [romFor_true, opcodeTable_length]

/-- Settles O14: the rows are compared constructor by constructor, and the raw numbers by the two lemmas on what names
nothing. -/
theorem rawCodesNameWhatTheyShould : Obligations.RawCodesNameWhatTheyShould := by
  refine ⟨fun mode => ?_, fun m => ?_, fun ext mode => Mode.ofCode_code_of_exists, Mode.ofCode_eq_none_iff,
    Mnemonic.ofIndex_index, Mnemonic.ofIndex_eq_none_iff⟩
  · cases mode <;> exact ⟨rfl, rfl, rfl, rfl⟩
  · cases m <;> rfl

end Machine
end Sys2Proof
end

section
/-! SUPPORT. A step at a port: the first pending request is answered by its unit, or refused (R24 to R29, D16). -/

namespace Sys2Proof.Machine

/-- What a port answers is the whole effect of a step, but that the request is taken off (R231). -/
theorem step_of_answerPort_ok {s : State} {r : Request} {rest : List Request} {a : Response} (hs : s.Serving)
    (hp : s.pending = r :: rest) (ha : answerPort s.extModes s.rom s.zpRead r = .ok a) :
    step s = .next { s with pending := rest, response := some a } := by
  have hpop : s.popRequest.answer a = { s with pending := rest, response := some a } := by
    simp only [State.answer, State.popRequest, hp, List.tail_cons]
  simp only [step, hp, servePort, State.popRequest_construction, hs, State.popRequest_extModes, State.popRequest_rom,
    State.popRequest_zpRead, ha, hpop]

/-- What a port refuses, the step refuses (D16). -/
theorem step_of_answerPort_error {s : State} {r : Request} {rest : List Request} {e : Refusal} (hs : s.Serving)
    (hp : s.pending = r :: rest) (ha : answerPort s.extModes s.rom s.zpRead r = .error e) : step s = .refused e := by
  simp only [step, hp, servePort, State.popRequest_construction, hs, State.popRequest_extModes, State.popRequest_rom,
    State.popRequest_zpRead, ha]

/-- Settles O55: each port hands its inputs to its unit, the raw code read first. -/
theorem portsAnswerTheirUnits : Obligations.PortsAnswerTheirUnits := by
  refine fun s rest hs => ⟨fun m c mode hc hp => ?_, fun b hp => ?_, fun m c ops mode hc hp => ?_,
    fun bytes cursor hp => ?_, fun c operand x y mode hc hp => ?_, fun i m hi hp => ?_⟩
  · exact step_of_answerPort_ok hs hp (by simp only [answerPort, hc])
  · exact step_of_answerPort_ok hs hp rfl
  · exact step_of_answerPort_ok hs hp (by simp only [answerPort, hc])
  · exact step_of_answerPort_ok hs hp rfl
  · exact step_of_answerPort_ok hs hp (by simp only [answerPort, hc])
  · exact step_of_answerPort_ok hs hp (by simp only [answerPort, hi])

/-- Settles O56: a number past the last one names nothing, and its port refuses before it asks a unit. -/
theorem rawCodesNamingNothingAreRefused : Obligations.RawCodesNamingNothingAreRefused := by
  refine fun s rest hs => ⟨fun c hc => ?_, fun i hi hp => ?_⟩
  · have hnone : Mode.ofCode s.extModes c = none := (Mode.ofCode_eq_none_iff _ c).mpr hc
    refine ⟨fun m hp => ?_, fun m ops hp => ?_, fun operand x y hp => ?_⟩
    · exact step_of_answerPort_error hs hp (by simp only [answerPort, hnone])
    · exact step_of_answerPort_error hs hp (by simp only [answerPort, hnone])
    · exact step_of_answerPort_error hs hp (by simp only [answerPort, hnone])
  · have hnone : Mnemonic.ofIndex i = none := (Mnemonic.ofIndex_eq_none_iff i).mpr hi
    exact step_of_answerPort_error hs hp (by simp only [answerPort, hnone])

end Sys2Proof.Machine
end

section
/-! SUPPORT. What a request leaves unchanged: the shape of every next state (R21, R30, R31, R53), and the answer that
nothing reads (R260). -/

namespace Sys2Proof.Machine

/-- Every next state of the shared meaning: an error alone, or the report with the cursor moved past it. -/
theorem serve_eq_next {m : Mnemonic} {mode : Mode} {ops : Bytes} {s t : State} (h : serve m mode ops s = .next t) :
    (∃ e, t = s.answer (.error e)) ∨
    ∃ r, report s.rom s.x s.y s.zpRead m mode ops = .ok r ∧
      t = (s.advance r.decoded.consumed).answer (.instruction r) := by
  rcases serve_cases m mode ops s with ⟨e, -, hr⟩ | ⟨e, -, -, hr⟩ | ⟨r, -, hrep, hr⟩
  · cases hr.symm.trans h
  · cases hr.symm.trans h
    exact .inl ⟨e, rfl⟩
  · cases hr.symm.trans h
    exact .inr ⟨r, hrep, rfl⟩

/-- Every next state of a port: an answer alone. -/
theorem servePort_eq_next {r : Request} {s t : State} (h : servePort r s = .next t) : ∃ a, t = s.answer a := by
  rcases servePort_cases r s with ⟨e, -, hr⟩ | ⟨e, -, -, hr⟩ | ⟨a, -, -, hr⟩ <;> cases hr.symm.trans h
  exact ⟨a, rfl⟩

/-- A step writes the caller's cursor, its pending requests and the answer, and no other field. -/
theorem step_eq_next {s t : State} (h : step s = .next t) :
    ∃ c p r, t = { s with cursor := c, pending := p, response := r } := by
  rcases step_cases s with ⟨r, rest, -, hr⟩ | ⟨-, e, -, hr⟩ | ⟨-, e, -, hr⟩ | ⟨-, d, -, hr⟩ <;> rw [hr] at h
  · obtain ⟨a, rfl⟩ := servePort_eq_next h
    exact ⟨_, _, _, rfl⟩
  · cases h
  · cases h
    exact ⟨_, _, _, rfl⟩
  · rcases serve_eq_next h with ⟨e, rfl⟩ | ⟨r, -, rfl⟩ <;> exact ⟨_, _, _, rfl⟩

/-- Settles O31: `exec` is `serve`, whose next states are an answer, with the cursor moved or not. -/
theorem instructionFrame : Obligations.InstructionFrame := by
  intro i s t h
  rw [exec_eq_serve] at h
  rcases serve_eq_next h with ⟨e, rfl⟩ | ⟨r, -, rfl⟩
  · exact ⟨rfl, rfl, rfl, rfl, rfl, rfl, rfl, rfl, rfl, fun _ => rfl, .inl ⟨e, rfl, rfl⟩⟩
  · exact ⟨rfl, rfl, rfl, rfl, rfl, rfl, rfl, rfl, rfl, fun _ => rfl, .inr ⟨r, rfl, rfl⟩⟩

/-- Settles O32: the fields a step writes are none of these, and the table is computed from these. -/
theorem noStepWritesTableInputsOrMemory : Obligations.NoStepWritesTableInputsOrMemory := by
  intro s t h
  obtain ⟨c, p, r, rfl⟩ := step_eq_next h
  exact ⟨rfl, rfl, rfl, rfl, rfl, rfl, fun _ => rfl, fun _ _ => rfl, fun _ => rfl⟩

/-- Every answer replaces the last one, so the shared meaning does not see it. -/
theorem serve_with_response (m : Mnemonic) (mode : Mode) (ops : Bytes) (s : State) (r : Option Response) :
    serve m mode ops { s with response := r } = serve m mode ops s := rfl

theorem servePort_with_response (q : Request) (s : State) (r : Option Response) :
    servePort q { s with response := r } = servePort q s := rfl

theorem exec_with_response (i : Instr) (s : State) (r : Option Response) :
    exec i { s with response := r } = exec i s := by
  rw [exec_eq_serve, exec_eq_serve, serve_with_response]

theorem fetch_with_response (s : State) (r : Option Response) : fetch { s with response := r } = fetch s := rfl

theorem step_with_response (s : State) (r : Option Response) : step { s with response := r } = step s := by
  have hport (q : Request) : servePort q (State.popRequest { s with response := r }) = servePort q s.popRequest :=
    servePort_with_response q s.popRequest r
  simp only [step, fetch_with_response, exec_with_response, hport]

/-- Settles O36: steps, instructions and ports end in an answer and read none. -/
theorem answersDoNotDependOnHistory : Obligations.AnswersDoNotDependOnHistory :=
  fun s r => ⟨step_with_response s r, fun i => exec_with_response i s r, fun q => servePort_with_response q s r⟩

/-- Settles O33: the opcode map passes the check, the memory and the stream are empty, and there is no answer yet. -/
theorem resetSatisfiesInvariant : Obligations.ResetSatisfiesInvariant :=
  have hchecked : State.reset.Checked := (verdictOf_eq_passed.mpr opcodeTable_passes).symm
  ⟨hchecked, memWf_nil, Nat.le_refl 0, fun _ h => nomatch h⟩

end Sys2Proof.Machine
end

section
/-! SUPPORT. The caller's walk: what is decoded at the cursor is what the step reports, and the cursor moves past it
(R20, R150, 95_test_vectors.md section 6). -/

namespace Sys2Proof

/-- What the Decoder answers: an entry of the table, with as many operand bytes as its mode has, and the bytes of the
stream that it consumed are the entry's opcode and those operand bytes (R150, R152). -/
theorem decode_eq_ok {rom : List Entry} {bytes : Bytes} {cursor : Nat} {d : Decoded}
    (h : decode rom bytes cursor = .ok d) :
    ∃ e ∈ rom, d = ⟨e.mnemonic, e.mode, d.operands, 1 + e.mode.operandSize⟩ ∧
      d.operands.length = e.mode.operandSize ∧ (bytes.drop cursor).take d.consumed = e.opcode :: d.operands := by
  rcases decode_cases rom bytes cursor with ⟨-, hd⟩ | ⟨b, rest, -, -, hd⟩ | ⟨b, rest, m, mode, -, -, -, hd⟩ |
    ⟨b, rest, m, mode, hb, hl, hs, hd⟩
  · cases hd.symm.trans h
  · cases hd.symm.trans h
  · cases hd.symm.trans h
  · cases hd.symm.trans h
    rcases lookupInstruction_cases rom b with ⟨-, hk⟩ | ⟨e, he, rfl, hk⟩ <;> cases hk.symm.trans hl
    exact ⟨e, he, rfl, List.length_take_of_le hs, by rw [hb, Nat.add_comm, List.take_succ_cons]⟩

/-- R61, R62: the opcode byte and the mode's operand bytes are consumed. -/
theorem decode_consumed {rom : List Entry} {bytes : Bytes} {cursor : Nat} {d : Decoded}
    (h : decode rom bytes cursor = .ok d) : d.consumed = 1 + d.mode.operandSize := by
  obtain ⟨e, -, hd, -⟩ := decode_eq_ok h
  rw [hd]

/-- The Decoder answers an instruction only within the stream (R150). -/
theorem cursor_lt_of_decode {rom : List Entry} {bytes : Bytes} {cursor : Nat} {d : Decoded}
    (h : decode rom bytes cursor = .ok d) : cursor < bytes.length := by
  obtain ⟨e, -, -, -, hb⟩ := decode_eq_ok h
  by_contra hge
  simp [List.drop_eq_nil_of_le (Nat.not_lt.mp hge)] at hb

namespace Machine

/-- The bytes of an entry and its operands decode to the entry, whatever stands after them (R83, R150). -/
theorem decode_entry_bytes {rom : List Entry} (hp : Passes rom) {e : Entry} (he : e ∈ rom) {ops : Bytes}
    (hl : ops.length = e.mode.operandSize) :
    decode rom (e.opcode :: ops) 0 = .ok ⟨e.mnemonic, e.mode, ops, 1 + e.mode.operandSize⟩ := by
  simp only [decode, List.drop_zero, lookupInstruction_of_mem hp he, ← hl, lt_irrefl, if_false, List.take_length]

/-- In a table that passes, a decoded instruction is encoded by the bytes it was decoded from, so its report is of
these (R83, R153). -/
theorem report_of_decode {rom : List Entry} (hp : Passes rom) {bytes : Bytes} {cursor : Nat} {d : Decoded}
    (h : decode rom bytes cursor = .ok d) (x y : Byte) (zp : Byte → Byte) :
    report rom x y zp d.mnemonic d.mode d.operands =
      .ok (describe ((bytes.drop cursor).take d.consumed) d x y zp) := by
  obtain ⟨e, he, hd, hl, hb⟩ := decode_eq_ok h
  have hm : d.mnemonic = e.mnemonic := by rw [hd]
  have hmode : d.mode = e.mode := by rw [hd]
  have henc : encode rom d.mnemonic.name d.mode d.operands = .ok (e.opcode :: d.operands) := by
    simp [encode, hm, hmode, lookupOpcode_of_mem hp he, hl]
  have hdec : decode rom (e.opcode :: d.operands) 0 = .ok d := (decode_entry_bytes hp he hl).trans (by rw [← hd])
  simp only [report, henc, hdec, hb]

/-- A decoded instruction is served by its report, with the cursor moved past its bytes (R20). -/
theorem serve_of_decode {s : State} (hc : s.Checked) (hs : s.Serving) {d : Decoded}
    (h : decode s.rom s.stream s.cursor = .ok d) :
    serve d.mnemonic d.mode d.operands s = .next ((s.advance d.consumed).answer
      (.instruction (describe ((s.stream.drop s.cursor).take d.consumed) d s.x s.y s.zpRead))) := by
  simp only [serve, hs, report_of_decode (hc.passes hs) h]
  rfl

/-- A walk step serves what is decoded at the cursor. -/
theorem step_of_decode {s : State} (hw : s.Walking) {d : Decoded} (h : decode s.rom s.stream s.cursor = .ok d) :
    step s = serve d.mnemonic d.mode d.operands s := by
  rcases step_cases s with ⟨r, rest, hp, -⟩ | ⟨-, e, hf, -⟩ | ⟨-, e, he, -⟩ | ⟨-, d', hd', hr⟩
  · cases hw.2.symm.trans hp
  · cases hw.1.symm.trans hf
  · cases he.symm.trans h
  · cases hd'.symm.trans h
    exact hr

/-- Settles O28: `exec` of the instruction read from the decoded triple is the service of that triple. -/
theorem stepRunsTheDecodedInstruction : Obligations.StepRunsTheDecodedInstruction := by
  intro s d i hw hd hi
  obtain ⟨hm, hmode, hops⟩ := ofTriple_eq_some hi
  have hexec : exec i s = serve d.mnemonic d.mode d.operands s := by rw [exec_eq_serve, hm, hmode, hops]
  exact ⟨(step_of_decode hw hd).trans hexec.symm, fun hc => ⟨_, hexec.trans (serve_of_decode hc hw.1 hd), rfl⟩⟩

/-- R63: a byte sign-extended to 16 bits, as a number. -/
theorem signExtend_byte_toNat (b : Byte) :
    (b.signExtend 16).toNat = if b.toNat < 128 then b.toNat else 65280 + b.toNat := by
  have := b.isLt
  simp only [BitVec.toNat_signExtend, BitVec.toNat_setWidth, BitVec.msb_eq_decide, decide_eq_true_eq]
  split <;> split <;> omega

/-- Settles O29: the step by what the Decoder answers, the operand words and readings as numbers. -/
theorem stepIsDecodeThenResolve : Obligations.StepIsDecodeThenResolve := by
  refine ⟨fun s hc hw => ⟨fun e he => step_of_decode_error hw he, fun d hd => ?_⟩, rfl, rfl, rfl, fun lo hi =>
    ⟨rfl, rfl, rfl, rfl, rfl, ⟨lo.setWidth 16, ?_, rfl, rfl⟩, ⟨lo.signExtend 16, signExtend_byte_toNat lo, rfl⟩,
      ⟨wordOf lo hi, ?_, rfl, rfl, rfl, rfl, rfl⟩⟩⟩
  · exact (step_of_decode hw hd).trans (serve_of_decode hc hw.1 hd)
  · exact BitVec.toNat_setWidth_of_le (by decide)
  · rw [wordOf_toNat, Nat.mul_comm, Nat.add_comm]

/-- A report's decoded instruction comes from the Decoder, so it consumes its opcode byte and its mode's operand bytes. -/
theorem report_consumed {rom : List Entry} {x y : Byte} {zp : Byte → Byte} {m : Mnemonic} {mode : Mode} {ops : Bytes}
    {r : InstructionReport} (h : report rom x y zp m mode ops = .ok r) :
    r.decoded.consumed = 1 + r.decoded.mode.operandSize := by
  unfold report at h
  split at h
  · cases h
  · split at h
    · cases h
    · next hd =>
      cases h
      exact decode_consumed hd

/-- A step of a walk, whatever its table: an error alone, or, within the stream, a report with the cursor moved past its
opcode byte and operand bytes. -/
theorem walk_step_cases {s : State} (hw : s.Walking) :
    (∃ e, step s = .next (s.answersError e)) ∨
    ∃ r, s.cursor < s.stream.length ∧ r.decoded.consumed = 1 + r.decoded.mode.operandSize ∧
      step s = .next ((s.advance r.decoded.consumed).answer (.instruction r)) := by
  cases hd : decode s.rom s.stream s.cursor with
  | error e => exact .inl ⟨e, step_of_decode_error hw hd⟩
  | ok d =>
    rw [step_of_decode hw hd]
    rcases serve_cases d.mnemonic d.mode d.operands s with ⟨e, hf, -⟩ | ⟨e, -, -, hr⟩ | ⟨r, -, hrep, hr⟩
    · cases hw.1.symm.trans hf
    · exact .inl ⟨e, hr⟩
    · exact .inr ⟨r, cursor_lt_of_decode hd, report_consumed hrep, hr⟩

/-- Settles O40: the cursor moves by the report's bytes, and a mode has at most two operand bytes. -/
theorem cursorMovesByBytesConsumed : Obligations.CursorMovesByBytesConsumed := by
  intro s t r hw h hr
  rcases walk_step_cases hw with ⟨e, hs⟩ | ⟨r', -, hn, hs⟩
  · cases hs.symm.trans h
    cases hr
  · cases hs.symm.trans h
    cases hr
    have hle := r.decoded.mode.operandSize_le
    exact ⟨rfl, hn, by omega, by omega⟩

/-- An error answered by the walk is answered again by every further step: the cursor stays and nothing reads the
answer. -/
theorem step_answersError {s : State} {e : BlockError} (h : step s = .next (s.answersError e)) :
    step (s.answersError e) = .next (s.answersError e) :=
  (step_with_response s _).trans h

/-- A run of one more step, from its first step. -/
theorem run_succ_of_step {s t : State} (h : step s = .next t) (k : Nat) :
    Host.Core.run core (k + 1) s = Host.Core.run core k t := by
  simp only [Host.Core.run, show core.step s = .next t from h]

/-- Settles O39: by induction on the bytes left; each step answers an error, which stays, or consumes at least one of
them. -/
theorem walkReachesAnErrorAtTheEnd : Obligations.WalkReachesAnErrorAtTheEnd := by
  intro s hw
  induction hn : s.stream.length - s.cursor using Nat.strong_induction_on generalizing s with
  | _ n ih =>
    rcases walk_step_cases hw with ⟨e, hs⟩ | ⟨r, hlt, hr, hs⟩
    · exact ⟨1, s.answersError e, e, by omega, run_succ_of_step hs 0, rfl, step_answersError hs⟩
    · have hless : s.stream.length - (s.cursor + r.decoded.consumed) < n := by omega
      obtain ⟨k, t, e, hk, hrun, ht⟩ :=
        ih _ hless ((s.advance r.decoded.consumed).answer (.instruction r)) hw rfl
      exact ⟨k + 1, t, e, by omega, (run_succ_of_step hs k).trans hrun, ht⟩

end Machine
end Sys2Proof
end

section
/-! SUPPORT. What a read of the caller's memory sees of a write (R40, R41; log entry 5). -/

namespace Sys2Proof.Machine

/-- The byte at a 16-bit address after a caller's write. -/
theorem memRead_memWrite {m : List Host.Cell} (hm : memWf m = true) (a b : Word) (v : Byte) :
    memRead (memWrite m a v) b = if b = a then v else memRead m b := by
  simp only [memRead, memWrite, cellRead_cellWrite hm, BitVec.toNat_inj, eq_comm]

/-- R40: `ZpRead` reads the address that a byte is with a zero high byte. -/
theorem setWidth_eq_iff_toNat_eq (p : Byte) (a : Word) : p.setWidth 16 = a ↔ a.toNat = p.toNat := by
  rw [← BitVec.toNat_inj, BitVec.toNat_setWidth_of_le (by decide), eq_comm]

/-- Settles O59: `ZpRead` is a read at the zero-extended address, so all reads follow from the byte after a write. -/
theorem callerMemoryReadsWhatWasWritten : Obligations.CallerMemoryReadsWhatWasWritten := by
  refine fun s a v hm => ⟨memWrite_wf a v hm, fun b => memRead_memWrite hm a b v, fun p => ?_⟩
  simp only [State.zpRead, memRead_memWrite hm, setWidth_eq_iff_toNat_eq]

end Sys2Proof.Machine
end

section
/-! SUPPORT. The zero-page reads a request issues are all that the Resolver sees of the caller's memory (R48, R49, R50). -/

namespace Sys2Proof.Machine

/-- A pointer word is made of the two bytes it is stored in (R44). -/
theorem pointerWord_congr {zp zp' : Byte → Byte} {p : Byte} (h : ∀ a ∈ [p, p + 1], zp a = zp' a) :
    pointerWord zp p = pointerWord zp' p := by
  rw [pointerWord, pointerWord, h p (by simp), h (p + 1) (by simp)]

/-- The Resolver sees two memories alike where they agree on its reads: of the modes, only the two that read a pointer
look at the memory, and their reads are that pointer's bytes (R48, R49). -/
theorem resolveAddress_congr {mode : Mode} {operand : Word} {x : Byte} {zp zp' : Byte → Byte}
    (h : ∀ a ∈ zpReads mode operand x, zp a = zp' a) (y : Byte) :
    resolveAddress mode operand x y zp = resolveAddress mode operand x y zp' := by
  cases mode with
  | indirectX => simp only [resolveAddress, eaIndirectX, pointerWord_congr h]
  | indirectY => simp only [resolveAddress, eaIndirectY, pointerWord_congr h]
  | accumulator | implied | immediate | zeroPage | zeroPageX | zeroPageY | absolute | absoluteX | absoluteY | relative
  | indirect => rfl

/-- Settles O25: the pointer's bytes are the reads of the two indirect modes, and no other mode reads. -/
theorem resolverDependsOnItsReadsOnly : Obligations.ResolverDependsOnItsReadsOnly := by
  refine ⟨fun mode operand x y zp zp' h => resolveAddress_congr h y, fun mode operand x => ?_⟩
  cases mode with
  | indirectX => exact ⟨loByte operand + x, rfl⟩
  | indirectY => exact ⟨loByte operand, rfl⟩
  | accumulator | implied | immediate | zeroPage | zeroPageX | zeroPageY | absolute | absoluteX | absoluteY | relative
  | indirect => rfl

end Sys2Proof.Machine
end

section
/-! SUPPORT. A port sees nothing of what another request writes: neither the answer nor the caller's cursor (R53, R246). -/

namespace Sys2Proof.Machine

/-- A request served at a port leaves every port as it was. -/
theorem servePort_after_servePort {q : Request} {s t : State} (h : servePort q s = .next t) (q' : Request) :
    servePort q' t = servePort q' s := by
  obtain ⟨a, rfl⟩ := servePort_eq_next h
  exact servePort_with_response q' s (some a)

/-- An instruction writes the caller's cursor and the answer, and no other field (R31). -/
theorem exec_eq_next {i : Instr} {s t : State} (h : exec i s = .next t) :
    ∃ c r, t = { s with cursor := c, response := r } := by
  rw [exec_eq_serve] at h
  rcases serve_eq_next h with ⟨e, rfl⟩ | ⟨r, -, rfl⟩ <;> exact ⟨_, _, rfl⟩

/-- What a port answers is the whole effect of its request (R231). -/
theorem servePort_of_answerPort_ok {q : Request} {s : State} {a : Response} (hs : s.Serving)
    (ha : answerPort s.extModes s.rom s.zpRead q = .ok a) : servePort q s = .next (s.answer a) := by
  simp only [servePort, hs, ha]

/-- A port request at another cursor, after another answer, is answered alike (R154). -/
theorem servePort_with_cursor {q : Request} {s u : State} (h : servePort q s = .next u) (c : Nat)
    (r : Option Response) :
    servePort q { s with cursor := c, response := r } = .next { u with cursor := c } := by
  rcases servePort_cases q s with ⟨e, -, hr⟩ | ⟨e, -, -, hr⟩ | ⟨a, hs, ha, hr⟩ <;> cases hr.symm.trans h
  exact servePort_of_answerPort_ok (s := { s with cursor := c, response := r }) hs ha

/-- Settles O37: requests change the answer and the cursor at most, and ports read neither. -/
theorem requestsAreIndependent : Obligations.RequestsAreIndependent := by
  refine ⟨fun s t q q' ht => ⟨servePort_after_servePort ht q', fun u hu => ?_⟩, fun s t u i q ht hu => ?_⟩
  · exact ⟨t, u, (servePort_after_servePort hu q).trans ht, (servePort_after_servePort ht q').trans hu, rfl, rfl⟩
  · obtain ⟨c, r, rfl⟩ := exec_eq_next ht
    exact ⟨_, servePort_with_cursor hu c r, rfl⟩

end Sys2Proof.Machine
end

section
/-! SUPPORT. What a unit answers agrees with the table it works from: what its result is made of, and which errors it
raises (R81, R82, R100, R120, R150). -/

namespace Sys2Proof

/-- An opcode byte that the lookup answers is an entry's of the pair asked for (R81). -/
theorem lookupOpcode_eq_ok {rom : List Entry} {m : Text} {mode : Mode} {op : Byte}
    (h : lookupOpcode rom m mode = .ok op) : ∃ e ∈ rom, e.mnemonic.name = m ∧ e.mode = mode ∧ e.opcode = op := by
  rcases lookupOpcode_cases rom m mode with ⟨-, hr⟩ | ⟨-, -, hr⟩ | ⟨e, he, hm, hd, hr⟩ <;> cases hr.symm.trans h
  exact ⟨e, he, hm, hd, rfl⟩

/-- Bytes that the Encoder answers are an entry's opcode and as many operand bytes as its mode has (R100, R101). -/
theorem encode_eq_ok {rom : List Entry} {m : Text} {mode : Mode} {ops bytes : Bytes}
    (h : encode rom m mode ops = .ok bytes) :
    ∃ e ∈ rom, bytes = e.opcode :: ops ∧ ops.length = e.mode.operandSize := by
  rcases encode_cases rom m mode ops with ⟨e, -, hr⟩ | ⟨op, -, -, hr⟩ | ⟨op, hl, hs, hr⟩ <;> cases hr.symm.trans h
  obtain ⟨e, he, -, rfl, rfl⟩ := lookupOpcode_eq_ok hl
  exact ⟨e, he, rfl, hs⟩

/-- The bytes consumed lie within the stream (R150). -/
theorem decode_consumed_le {rom : List Entry} {bytes : Bytes} {cursor : Nat} {d : Decoded}
    (h : decode rom bytes cursor = .ok d) : cursor + d.consumed ≤ bytes.length := by
  have hlt := cursor_lt_of_decode h
  obtain ⟨e, -, hd, hl, hb⟩ := decode_eq_ok h
  have hconsumed : d.consumed = 1 + e.mode.operandSize := by rw [hd]
  have hlen := congrArg List.length hb
  simp only [List.length_take, List.length_drop, List.length_cons, hl] at hlen
  omega

/-! ### The errors of the units: none is construction's (R230, R234) -/

theorem lookupOpcode_error_ne {rom : List Entry} {m : Text} {mode : Mode} {e : BlockError}
    (h : lookupOpcode rom m mode = .error e) (d : Entry) : e ≠ .duplicateTableEntry d := by
  rcases lookupOpcode_cases rom m mode with ⟨-, hr⟩ | ⟨-, -, hr⟩ | ⟨f, -, -, -, hr⟩ <;> cases hr.symm.trans h <;> simp

theorem lookupInstruction_error_ne {rom : List Entry} {b : Byte} {e : BlockError}
    (h : lookupInstruction rom b = .error e) (d : Entry) : e ≠ .duplicateTableEntry d := by
  rcases lookupInstruction_cases rom b with ⟨-, hr⟩ | ⟨f, -, -, hr⟩ <;> cases hr.symm.trans h
  simp

theorem encode_error_ne {rom : List Entry} {m : Text} {mode : Mode} {ops : Bytes} {e : BlockError}
    (h : encode rom m mode ops = .error e) (d : Entry) : e ≠ .duplicateTableEntry d := by
  rcases encode_cases rom m mode ops with ⟨e', hl, hr⟩ | ⟨op, -, -, hr⟩ | ⟨op, -, -, hr⟩ <;> cases hr.symm.trans h
  · exact lookupOpcode_error_ne hl d
  · simp

theorem decode_error_ne {rom : List Entry} {bytes : Bytes} {cursor : Nat} {e : BlockError}
    (h : decode rom bytes cursor = .error e) (d : Entry) : e ≠ .duplicateTableEntry d := by
  rcases decode_cases rom bytes cursor with ⟨-, hr⟩ | ⟨b, rest, -, -, hr⟩ | ⟨b, rest, m, mode, -, -, -, hr⟩ |
    ⟨b, rest, m, mode, -, -, -, hr⟩ <;> cases hr.symm.trans h <;> simp

namespace Machine

theorem resolveAddress_error_ne {mode : Mode} {operand : Word} {x y : Byte} {zp : Byte → Byte} {e : BlockError}
    (h : resolveAddress mode operand x y zp = .error e) (d : Entry) : e ≠ .duplicateTableEntry d := by
  rcases resolveAddress_cases mode operand x y zp with ⟨-, hr⟩ | ⟨-, a, hr⟩ <;> cases hr.symm.trans h
  simp

/-! ### Agreement with the table -/

/-- R122 to R124: a zero-page address is a byte with a zero high byte. -/
theorem setWidth_byte_lt (b : Byte) : (b.setWidth 16 : Word).toNat < 256 := by
  rw [BitVec.toNat_setWidth_of_le (by decide)]
  exact b.isLt

/-- R51, R121: the Resolver answers within its mode's bounds. -/
theorem resolveAddress_inBounds {mode : Mode} {operand : Word} {x y : Byte} {zp : Byte → Byte} {a : EffectiveAddress}
    (h : resolveAddress mode operand x y zp = .ok a) : addressInBounds mode a := by
  cases mode with
  | accumulator | implied | immediate | relative | indirect => cases h
  | zeroPage | zeroPageX | zeroPageY =>
    cases h
    exact ⟨rfl, fun _ => ⟨setWidth_byte_lt _, rfl⟩, fun _ => rfl⟩
  | absolute | indirectX =>
    cases h
    exact ⟨rfl, by simp, fun _ => rfl⟩
  | absoluteX | absoluteY | indirectY => exact ⟨rfl, by simp, by simp⟩

/-- A port's answer agrees with the table where the unit's result does and its error is not construction's. -/
theorem Response.ofResult_agrees {rom : List Entry} {α : Type} {f : α → Response} {result : Except BlockError α}
    (hok : ∀ a, result = .ok a → (f a).Agrees rom)
    (herror : ∀ e, result = .error e → ∀ d, e ≠ .duplicateTableEntry d) : (Response.ofResult f result).Agrees rom := by
  cases result with
  | ok a => exact hok a rfl
  | error e => exact herror e rfl

theorem lookupOpcode_agrees (rom : List Entry) (m : Text) (mode : Mode) :
    (Response.ofResult .opcode (lookupOpcode rom m mode)).Agrees rom := by
  refine Response.ofResult_agrees (fun op h => ?_) fun e => lookupOpcode_error_ne
  obtain ⟨e, he, -, -, ho⟩ := lookupOpcode_eq_ok h
  exact ⟨e, he, ho⟩

theorem lookupInstruction_agrees (rom : List Entry) (b : Byte) :
    (Response.ofResult (fun e => .entry e.1 e.2) (lookupInstruction rom b)).Agrees rom := by
  refine Response.ofResult_agrees (fun pair h => ?_) fun e => lookupInstruction_error_ne
  rcases lookupInstruction_cases rom b with ⟨-, hr⟩ | ⟨e, he, -, hr⟩ <;> cases hr.symm.trans h
  exact ⟨e, he, rfl, rfl⟩

theorem encode_agrees (rom : List Entry) (m : Text) (mode : Mode) (ops : Bytes) :
    (Response.ofResult .encoded (encode rom m mode ops)).Agrees rom := by
  refine Response.ofResult_agrees (fun bytes h => ?_) fun e => encode_error_ne
  obtain ⟨e, he, rfl, hs⟩ := encode_eq_ok h
  exact ⟨e, he, rfl, by rw [List.length_cons, hs, Nat.add_comm]⟩

theorem decode_agrees (rom : List Entry) (bytes : Bytes) (cursor : Nat) :
    (Response.ofResult .decoded (decode rom bytes cursor)).Agrees rom := by
  refine Response.ofResult_agrees (fun d h => ?_) fun e => decode_error_ne
  obtain ⟨e, he, hd, hl, -⟩ := decode_eq_ok h
  exact ⟨e, he, by rw [hd], by rw [hd], hl, by rw [hd]⟩

theorem resolveAddress_agrees (rom : List Entry) (mode : Mode) (operand : Word) (x y : Byte) (zp : Byte → Byte) :
    (Response.ofResult (fun a => .address a (zpReads mode operand x))
      (resolveAddress mode operand x y zp)).Agrees rom :=
  Response.ofResult_agrees (fun _ h => ⟨mode, operand, x, y, zp, h, rfl, resolveAddress_inBounds h⟩)
    fun _ => resolveAddress_error_ne

/-- Every port's answer agrees with the table. -/
theorem answerPort_agrees {ext : Bool} {rom : List Entry} {zp : Byte → Byte} {q : Request} {a : Response}
    (h : answerPort ext rom zp q = .ok a) : a.Agrees rom := by
  cases q with
  | lookupOpcode m c =>
    simp only [answerPort] at h
    split at h <;> cases h
    exact lookupOpcode_agrees rom m _
  | lookupInstruction b =>
    cases h
    exact lookupInstruction_agrees rom b
  | encode m c ops =>
    simp only [answerPort] at h
    split at h <;> cases h
    exact encode_agrees rom m _ ops
  | decode bytes cursor =>
    cases h
    exact decode_agrees rom bytes cursor
  | resolveAddress c operand x y =>
    simp only [answerPort] at h
    split at h <;> cases h
    exact resolveAddress_agrees rom _ operand x y zp
  | mnemonicName i =>
    simp only [answerPort] at h
    split at h <;> cases h
    exact ⟨_, rfl⟩

/-- What the walk reports of a decoded instruction agrees with the table (R101, R120, R153). -/
theorem describe_agrees {rom : List Entry} {bytes : Bytes} {cursor : Nat} {d : Decoded}
    (h : decode rom bytes cursor = .ok d) (x y : Byte) (zp : Byte → Byte) :
    (Response.instruction (describe ((bytes.drop cursor).take d.consumed) d x y zp)).Agrees rom := by
  obtain ⟨e, he, hd, hl, hb⟩ := decode_eq_ok h
  have hm : d.mnemonic = e.mnemonic := by rw [hd]
  have hmode : d.mode = e.mode := by rw [hd]
  have hconsumed : d.consumed = (e.opcode :: d.operands).length := by
    rw [List.length_cons, hl, Nat.add_comm, hd]
  rw [hb]
  exact ⟨⟨e, he, hm, hmode, rfl, hl, hconsumed⟩, fun a ha => resolveAddress_inBounds ha⟩

end Machine
end Sys2Proof
end

section
/-! SUPPORT. The invariant is kept by the two ways a step ends: in an answer, and in an answer with the cursor moved past
what was decoded. -/

namespace Sys2Proof.Machine

/-- The invariant asks nothing of the requests still pending. -/
theorem State.Inv.popRequest {s : State} (h : s.Inv) : s.popRequest.Inv := h

/-- An answer that agrees with the table keeps the invariant. -/
theorem State.Inv.answer {s : State} (h : s.Inv) {r : Response} (hr : r.Agrees s.rom) : (s.answer r).Inv := by
  obtain ⟨hchecked, hmem, hcursor, -⟩ := h
  exact ⟨hchecked, hmem, hcursor, fun _ h' => Option.some.inj h' ▸ hr⟩

/-- A cursor moved within the stream keeps the invariant. -/
theorem State.Inv.advance {s : State} (h : s.Inv) {n : Nat} (hn : s.cursor + n ≤ s.stream.length) :
    (s.advance n).Inv := by
  obtain ⟨hchecked, hmem, -, hresponse⟩ := h
  exact ⟨hchecked, hmem, hn, hresponse⟩

/-- A port keeps the invariant. -/
theorem servePort_keeps_inv {q : Request} {s t : State} (hs : s.Inv) (h : servePort q s = .next t) : t.Inv := by
  rcases servePort_cases q s with ⟨e, -, hr⟩ | ⟨e, -, -, hr⟩ | ⟨a, -, ha, hr⟩ <;> cases hr.symm.trans h
  exact hs.answer (answerPort_agrees ha)

/-- Serving what is decoded at the cursor keeps the invariant. -/
theorem serve_decoded_keeps_inv {s t : State} (hs : s.Inv) (hserving : s.Serving) {d : Decoded}
    (hd : decode s.rom s.stream s.cursor = .ok d) (h : serve d.mnemonic d.mode d.operands s = .next t) : t.Inv := by
  cases (serve_of_decode hs.1 hserving hd).symm.trans h
  exact (hs.advance (decode_consumed_le hd)).answer (describe_agrees hd s.x s.y s.zpRead)

/-- Settles O34: by what a step can do; whichever unit answers, its answer agrees with the table, and the cursor moves
only past bytes of the stream. -/
theorem stepKeepsInvariant : Obligations.StepKeepsInvariant := by
  intro s t hs h
  rcases step_cases s with ⟨q, rest, -, hr⟩ | ⟨-, e, -, hr⟩ | ⟨-, e, he, hr⟩ | ⟨hw, d, hd, hr⟩ <;> rw [hr] at h
  · exact servePort_keeps_inv hs.popRequest h
  · cases h
  · cases h
    exact hs.answer (decode_error_ne he)
  · exact serve_decoded_keeps_inv hs hw.1 hd h

end Sys2Proof.Machine
end

section
/-! SUPPORT. The bytes of an instruction are its entry's, and they decode to it wherever they stand in a stream (R60, R65,
R66, R150). -/

namespace Sys2Proof.Laws.Encoding

/-- Every instruction is a row of the opcode map (R66), each by the lemma of its own. -/
theorem statement_of_instr : ∀ i : Instr, Statement i
  | .adcImm n => adcImm n | .adcZp n => adcZp n | .adcZpx n => adcZpx n | .adcAbs lo hi => adcAbs lo hi
  | .adcAbx lo hi => adcAbx lo hi | .adcAby lo hi => adcAby lo hi | .adcIzx n => adcIzx n | .adcIzy n => adcIzy n
  | .andImm n => andImm n | .andZp n => andZp n | .andZpx n => andZpx n | .andAbs lo hi => andAbs lo hi
  | .andAbx lo hi => andAbx lo hi | .andAby lo hi => andAby lo hi | .andIzx n => andIzx n | .andIzy n => andIzy n
  | .aslAcc => aslAcc | .aslZp n => aslZp n | .aslZpx n => aslZpx n | .aslAbs lo hi => aslAbs lo hi
  | .aslAbx lo hi => aslAbx lo hi | .bccRel n => bccRel n | .bcsRel n => bcsRel n | .beqRel n => beqRel n
  | .bitZp n => bitZp n | .bitAbs lo hi => bitAbs lo hi | .bmiRel n => bmiRel n | .bneRel n => bneRel n
  | .bplRel n => bplRel n | .brkImp => brkImp | .bvcRel n => bvcRel n | .bvsRel n => bvsRel n | .clcImp => clcImp
  | .cldImp => cldImp | .cliImp => cliImp | .clvImp => clvImp | .cmpImm n => cmpImm n | .cmpZp n => cmpZp n
  | .cmpZpx n => cmpZpx n | .cmpAbs lo hi => cmpAbs lo hi | .cmpAbx lo hi => cmpAbx lo hi
  | .cmpAby lo hi => cmpAby lo hi | .cmpIzx n => cmpIzx n | .cmpIzy n => cmpIzy n | .cpxImm n => cpxImm n
  | .cpxZp n => cpxZp n | .cpxAbs lo hi => cpxAbs lo hi | .cpyImm n => cpyImm n | .cpyZp n => cpyZp n
  | .cpyAbs lo hi => cpyAbs lo hi | .decZp n => decZp n | .decZpx n => decZpx n | .decAbs lo hi => decAbs lo hi
  | .decAbx lo hi => decAbx lo hi | .dexImp => dexImp | .deyImp => deyImp | .eorImm n => eorImm n
  | .eorZp n => eorZp n | .eorZpx n => eorZpx n | .eorAbs lo hi => eorAbs lo hi | .eorAbx lo hi => eorAbx lo hi
  | .eorAby lo hi => eorAby lo hi | .eorIzx n => eorIzx n | .eorIzy n => eorIzy n | .incZp n => incZp n
  | .incZpx n => incZpx n | .incAbs lo hi => incAbs lo hi | .incAbx lo hi => incAbx lo hi | .inxImp => inxImp
  | .inyImp => inyImp | .jmpAbs lo hi => jmpAbs lo hi | .jmpInd lo hi => jmpInd lo hi | .jsrAbs lo hi => jsrAbs lo hi
  | .ldaImm n => ldaImm n | .ldaZp n => ldaZp n | .ldaZpx n => ldaZpx n | .ldaAbs lo hi => ldaAbs lo hi
  | .ldaAbx lo hi => ldaAbx lo hi | .ldaAby lo hi => ldaAby lo hi | .ldaIzx n => ldaIzx n | .ldaIzy n => ldaIzy n
  | .ldxImm n => ldxImm n | .ldxZp n => ldxZp n | .ldxZpy n => ldxZpy n | .ldxAbs lo hi => ldxAbs lo hi
  | .ldxAby lo hi => ldxAby lo hi | .ldyImm n => ldyImm n | .ldyZp n => ldyZp n | .ldyZpx n => ldyZpx n
  | .ldyAbs lo hi => ldyAbs lo hi | .ldyAbx lo hi => ldyAbx lo hi | .lsrAcc => lsrAcc | .lsrZp n => lsrZp n
  | .lsrZpx n => lsrZpx n | .lsrAbs lo hi => lsrAbs lo hi | .lsrAbx lo hi => lsrAbx lo hi | .nopImp => nopImp
  | .oraImm n => oraImm n | .oraZp n => oraZp n | .oraZpx n => oraZpx n | .oraAbs lo hi => oraAbs lo hi
  | .oraAbx lo hi => oraAbx lo hi | .oraAby lo hi => oraAby lo hi | .oraIzx n => oraIzx n | .oraIzy n => oraIzy n
  | .phaImp => phaImp | .phpImp => phpImp | .plaImp => plaImp | .plpImp => plpImp | .rolAcc => rolAcc
  | .rolZp n => rolZp n | .rolZpx n => rolZpx n | .rolAbs lo hi => rolAbs lo hi | .rolAbx lo hi => rolAbx lo hi
  | .rorAcc => rorAcc | .rorZp n => rorZp n | .rorZpx n => rorZpx n | .rorAbs lo hi => rorAbs lo hi
  | .rorAbx lo hi => rorAbx lo hi | .rtiImp => rtiImp | .rtsImp => rtsImp | .sbcImm n => sbcImm n
  | .sbcZp n => sbcZp n | .sbcZpx n => sbcZpx n | .sbcAbs lo hi => sbcAbs lo hi | .sbcAbx lo hi => sbcAbx lo hi
  | .sbcAby lo hi => sbcAby lo hi | .sbcIzx n => sbcIzx n | .sbcIzy n => sbcIzy n | .secImp => secImp
  | .sedImp => sedImp | .seiImp => seiImp | .staZp n => staZp n | .staZpx n => staZpx n
  | .staAbs lo hi => staAbs lo hi | .staAbx lo hi => staAbx lo hi | .staAby lo hi => staAby lo hi
  | .staIzx n => staIzx n | .staIzy n => staIzy n | .stxZp n => stxZp n | .stxZpy n => stxZpy n
  | .stxAbs lo hi => stxAbs lo hi | .styZp n => styZp n | .styZpx n => styZpx n | .styAbs lo hi => styAbs lo hi
  | .taxImp => taxImp | .tayImp => tayImp | .tsxImp => tsxImp | .txaImp => txaImp | .txsImp => txsImp
  | .tyaImp => tyaImp

end Sys2Proof.Laws.Encoding

namespace Sys2Proof.Machine

/-- Every instruction that the block has is an entry of its table, and its bytes are that entry's opcode followed by its
operand bytes (R60, R69). -/
theorem exists_entry_of_wellFormed {ext : Bool} {i : Instr} (h : i.wellFormed ext = true) :
    ∃ e ∈ romFor ext, i.mnemonic = e.mnemonic ∧ i.mode = e.mode ∧ encodeInstr i = e.opcode :: i.operands := by
  obtain ⟨e, he, hm, hmode, hbytes⟩ := Laws.Encoding.statement_of_instr i
  have hexists : ext = true ∨ e.mode.isExt = false := by
    simpa [Instr.wellFormed, Instr.extOnly_eq, hmode] using h
  exact ⟨e, mem_tableFor.mpr ⟨he, hexists⟩, hm, hmode, hbytes⟩

/-- The bytes of an entry and its operands decode to the entry, whatever stands before and after them (R150, R153). -/
theorem decode_entry_bytes_within {rom : List Entry} (hp : Passes rom) {e : Entry} (he : e ∈ rom) {ops : Bytes}
    (hl : ops.length = e.mode.operandSize) (before after : Bytes) :
    decode rom (before ++ e.opcode :: ops ++ after) before.length =
      .ok ⟨e.mnemonic, e.mode, ops, 1 + e.mode.operandSize⟩ := by
  have hdrop : (before ++ e.opcode :: ops ++ after).drop before.length = e.opcode :: (ops ++ after) := by simp
  have hsize : ¬ (ops ++ after).length < ops.length := by simp
  simp only [decode, hdrop, lookupInstruction_of_mem hp he, ← hl, hsize, if_false, List.take_left]

/-- The round trip of an instruction: its bytes decode to its mnemonic, mode and operand bytes, and are consumed. -/
theorem decode_encodeInstr {ext : Bool} {i : Instr} (h : i.wellFormed ext = true) (before after : Bytes) :
    decode (romFor ext) (before ++ encodeInstr i ++ after) before.length =
      .ok ⟨i.mnemonic, i.mode, i.operands, (encodeInstr i).length⟩ := by
  obtain ⟨e, he, hm, hmode, hbytes⟩ := exists_entry_of_wellFormed h
  have hl : i.operands.length = e.mode.operandSize := by rw [i.operands_length, hmode]
  rw [hbytes, decode_entry_bytes_within (romFor_passes ext) he hl, hm, hmode, List.length_cons, hl, Nat.add_comm]

/-- Settles O1: an instruction's bytes are those of its entry, which the Decoder finds again, and its own triple reads
as the instruction. -/
theorem decodeOfEncodeIsTheInstruction : Obligations.DecodeOfEncodeIsTheInstruction :=
  fun _ i before after h => ⟨_, decode_encodeInstr h before after, i.ofTriple_triple, rfl⟩

/-- A word whose first bytes are an instruction's is read as that instruction: with EXT_MODES every one is well formed. -/
theorem decodeTableWord_of_tableBytes {nbits w : Nat} {i : Instr} {after : Bytes}
    (h : tableBytes nbits w = encodeInstr i ++ after) : decodeTableWord nbits w = some i := by
  have hd : decode (romFor true) (tableBytes nbits w) 0 = .ok ⟨i.mnemonic, i.mode, i.operands, (encodeInstr i).length⟩ :=
    h ▸ decode_encodeInstr (ext := true) rfl [] after
  simp only [decodeTableWord, hd, Instr.ofTriple_triple]

/-- Settles O57: the bytes of each word are its instruction's and zeros, so the round trip reads them. -/
theorem wordsFromTheRulesDecode : Obligations.WordsFromTheRulesDecode := by
  refine ⟨?_, ?_, ?_, ?_, ?_, ?_, ?_, ?_, ?_, ?_, ?_, ?_, ?_⟩ <;> exact decodeTableWord_of_tableBytes rfl

end Sys2Proof.Machine
end

section
/-! SUPPORT. The opcode map in both directions: no byte and no pair stands twice, and which bytes have no entry (R65,
R68, R69). -/

namespace Sys2Proof

/-- R82: a byte is illegal exactly when no entry has it. -/
theorem lookupInstruction_eq_illegalOpcode_iff {rom : List Entry} {b : Byte} :
    lookupInstruction rom b = .error (.illegalOpcode b) ↔ ∀ e ∈ rom, e.opcode ≠ b := by
  rcases lookupInstruction_cases rom b with ⟨hn, hl⟩ | ⟨e, he, ho, hl⟩
  · exact iff_of_true hl hn
  · exact iff_of_false (by simp [hl]) fun hn => hn e he ho

namespace Machine

/-- Settles O4: both tables pass the construction check, so a byte, and a pair, determines its entry. -/
theorem opcodeMapIsInjective : Obligations.OpcodeMapIsInjective := by
  refine ⟨fun ext e f he hf => ⟨?_, ?_⟩, ?_, ?_⟩
  · exact (romFor_passes ext).eq_of_opcode he hf
  · exact (romFor_passes ext).eq_of_pair he hf
  · rw [romFor_true, opcodeTable_length]
  · exact (passes_iff_nodup.mp (romFor_passes true)).2.of_map

/-- R68: the listed bytes and the bytes of the opcode map's rows are together the 256 bytes, each once. -/
theorem illegalBytes_append_opcodes_perm :
    ((illegalBytes ++ opcodeTable.map (·.opcode)).map (·.toNat)).Perm (List.range 256) := by decide +kernel

theorem illegalBytes_append_opcodes_nodup : (illegalBytes ++ opcodeTable.map (·.opcode)).Nodup :=
  List.Nodup.of_map _ (illegalBytes_append_opcodes_perm.nodup_iff.mpr List.nodup_range)

theorem mem_illegalBytes_append_opcodes (b : Byte) : b ∈ illegalBytes ++ opcodeTable.map (·.opcode) := by
  have hb : b.toNat ∈ List.range 256 := List.mem_range.mpr b.isLt
  rw [← illegalBytes_append_opcodes_perm.mem_iff] at hb
  exact (List.mem_map_of_injective fun _ _ => BitVec.eq_of_toNat_eq).mp hb

/-- R68: the listed bytes are those that no row of the opcode map has. -/
theorem mem_illegalBytes_iff (b : Byte) : b ∈ illegalBytes ↔ ∀ e ∈ opcodeTable, e.opcode ≠ b := by
  obtain ⟨-, -, hdisjoint⟩ := List.nodup_append'.mp illegalBytes_append_opcodes_nodup
  refine ⟨fun hb e he ho => hdisjoint hb (ho ▸ List.mem_map_of_mem he), fun hn => ?_⟩
  refine (List.mem_append.mp (mem_illegalBytes_append_opcodes b)).resolve_right fun hb => ?_
  obtain ⟨e, he, ho⟩ := List.mem_map.mp hb
  exact hn e he ho

/-- R69: the rows in the two extension modes are the listed ones. -/
theorem mem_extensionRows_of_isExt : ∀ e ∈ opcodeTable, e.mode.isExt = true → e ∈ extensionRows := by
  decide +kernel

/-- R68, R69: without EXT_MODES a byte has no entry when no row has it or its row is an extension row. -/
theorem lookupInstruction_false_eq_illegalOpcode_iff (b : Byte) :
    lookupInstruction (romFor false) b = .error (.illegalOpcode b) ↔
      b ∈ illegalBytes ∨ b ∈ extensionRows.map (·.opcode) := by
  constructor
  · intro hl
    rcases lookupInstruction_cases opcodeTable b with ⟨hn, -⟩ | ⟨e, he, rfl, -⟩
    · exact .inl ((mem_illegalBytes_iff b).mpr hn)
    · have hext : e.mode.isExt = true := by
        by_contra hx
        have hmem : e ∈ romFor false := mem_tableFor.mpr ⟨he, .inr (Bool.eq_false_of_not_eq_true hx)⟩
        exact lookupInstruction_eq_illegalOpcode_iff.mp hl e hmem rfl
      exact .inr (List.mem_map_of_mem (mem_extensionRows_of_isExt e he hext))
  · rintro (hb | hb)
    · exact lookupInstruction_eq_illegalOpcode_iff.mpr fun e he =>
        (mem_illegalBytes_iff b).mp hb e (mem_tableFor.mp he).1
    · obtain ⟨e, he, rfl⟩ := List.mem_map.mp hb
      exact lookupInstruction_of_mem_extensionRows he

/-- R68, R69: no byte is listed twice, and an extension row's byte is a row's, so not among the illegal ones. -/
theorem illegalBytes_append_extension_nodup : (illegalBytes ++ extensionRows.map (·.opcode)).Nodup := by
  obtain ⟨hillegal, -, hdisjoint⟩ := List.nodup_append'.mp illegalBytes_append_opcodes_nodup
  have hrows : extensionRows.map (·.opcode) ⊆ opcodeTable.map (·.opcode) :=
    List.map_subset _ fun e he => (mem_opcodeTable_of_mem_extensionRows e he).1
  exact List.nodup_append'.mpr ⟨hillegal, by decide, List.disjoint_of_subset_right hrows hdisjoint⟩

/-- Settles O6: an illegal byte is one without a row, or, without EXT_MODES, one whose only row is an extension row. -/
theorem illegalBytesAreTheListed : Obligations.IllegalBytesAreTheListed := by
  refine ⟨rfl, rfl, illegalBytes_append_extension_nodup, fun b => ?_, lookupInstruction_false_eq_illegalOpcode_iff,
    fun e he => ?_⟩
  · rw [lookupInstruction_eq_illegalOpcode_iff, romFor_true, mem_illegalBytes_iff]
  · have hmem : e ∈ romFor true := romFor_true ▸ (mem_opcodeTable_of_mem_extensionRows e he).1
    exact lookupInstruction_of_mem (romFor_passes true) hmem

end Machine
end Sys2Proof
end

section
/-! SUPPORT. The 11-bit ROM word: its three fields, and that reading it is the lookup (R71, R82). -/

namespace Sys2Proof

/-- R71: the word of an entry, in a table that passes. -/
theorem romWord_of_mem {rom : List Entry} (h : Machine.Passes rom) {e : Entry} (he : e ∈ rom) :
    romWord rom e.opcode = (1#1 ++ e.mnemonic.index) ++ e.mode.code := by
  unfold romWord
  cases hf : rom.find? (fun f => f.opcode == e.opcode) with
  | none => simpa using List.find?_eq_none.mp hf e he
  | some f =>
    obtain rfl : f = e := h.eq_of_opcode (List.mem_of_find?_eq_some hf) he (by simpa using List.find?_some hf)
    rfl

/-- R71: the word of a byte without entry. -/
theorem romWord_eq_zero {rom : List Entry} {b : Byte} (h : ∀ e ∈ rom, e.opcode ≠ b) : romWord rom b = 0 := by
  have hf : rom.find? (fun e => e.opcode == b) = none := by simpa using h
  simp only [romWord, hf]

/-- The three fields of a word put together from them (R71). -/
theorem wordFields_append (index : BitVec 6) (code : BitVec 4) :
    ((1#1 ++ index) ++ code).getLsbD 10 = true ∧ ((1#1 ++ index) ++ code).extractLsb' 4 6 = index ∧
      ((1#1 ++ index) ++ code).extractLsb' 0 4 = code := by
  refine ⟨?_, ?_, ?_⟩
  · rw [BitVec.getLsbD_append, BitVec.getLsbD_append]
    rfl
  · rw [BitVec.extractLsb'_append_eq_of_le (by decide), BitVec.extractLsb'_append_eq_of_add_le (by decide),
      BitVec.extractLsb'_eq_self]
  · rw [BitVec.extractLsb'_append_eq_of_add_le (by decide), BitVec.extractLsb'_eq_self]

/-- R71: the word of an entry says the entry's pair. -/
theorem readRomWord_append (m : Mnemonic) (mode : Mode) :
    readRomWord true ((1#1 ++ m.index) ++ mode.code) = some (m, mode) := by
  obtain ⟨hvalid, hindex, hcode⟩ := wordFields_append m.index mode.code
  simp only [readRomWord, hvalid, hindex, hcode, Mnemonic.ofIndex_index, Mode.ofCode_code, if_true]

namespace Machine

/-- Settles O12: a byte has one entry or none, and its word is put together from that entry or zero. -/
theorem romWordHoldsTheEntry : Obligations.RomWordHoldsTheEntry := by
  intro rom hb
  have hp : Passes rom := (build_eq_ok.mp hb).1
  refine ⟨fun e he => ?_, fun b hn => romWord_eq_zero hn, fun b => ?_⟩
  · rw [romWord_of_mem hp he]
    exact wordFields_append e.mnemonic.index e.mode.code
  · rcases lookupInstruction_cases rom b with ⟨hn, hl⟩ | ⟨e, he, rfl, hl⟩
    · rw [romWord_eq_zero hn, hl]
      rfl
    · rw [romWord_of_mem hp he, readRomWord_append, hl]
      rfl

end Machine
end Sys2Proof
end

section
/-! SUPPORT. What each answer of the two lookups says of the table (R80 to R83). -/

namespace Sys2Proof

/-- R80, R81: the name has an entry, but none with this mode. -/
theorem lookupOpcode_eq_unsupported_iff {rom : List Entry} {m : Text} {mode : Mode} :
    lookupOpcode rom m mode = .error (.unsupportedAddressingMode m mode) ↔
      (∃ e ∈ rom, e.mnemonic.name = m) ∧ ¬ ∃ e ∈ rom, e.mnemonic.name = m ∧ e.mode = mode := by
  rw [← definedMnemonic_iff]
  rcases lookupOpcode_cases rom m mode with ⟨hd, hl⟩ | ⟨hd, hn, hl⟩ | ⟨e, he, hm, hmode, hl⟩
  · exact iff_of_false (by simp [hl]) (by simp [hd])
  · exact iff_of_true hl ⟨hd, fun ⟨e, he, hm, hmode⟩ => hn e he hm hmode⟩
  · exact iff_of_false (by simp [hl]) fun h => h.2 ⟨e, he, hm, hmode⟩

/-- R80: no entry has the name. -/
theorem lookupOpcode_eq_unknownMnemonic_iff {rom : List Entry} {m : Text} {mode : Mode} :
    lookupOpcode rom m mode = .error (.unknownMnemonic m) ↔ ¬ ∃ e ∈ rom, e.mnemonic.name = m := by
  rw [← definedMnemonic_iff]
  rcases lookupOpcode_cases rom m mode with ⟨hd, hl⟩ | ⟨hd, -, hl⟩ | ⟨e, he, hm, -, hl⟩
  · exact iff_of_true hl (by simp [hd])
  · exact iff_of_false (by simp [hl]) (not_not_intro hd)
  · exact iff_of_false (by simp [hl]) (not_not_intro (definedMnemonic_iff.mpr ⟨e, he, hm⟩))

namespace Machine

/-- Settles O3: in a passing table the pair, and the byte, of an entry lead back to that entry. -/
theorem lookupsAreInverse : Obligations.LookupsAreInverse := by
  intro rom e hb he
  have hp : Passes rom := (build_eq_ok.mp hb).1
  exact ⟨lookupOpcode_of_mem hp he, lookupInstruction_of_mem hp he⟩

/-- Settles O10: only the answer's byte needs a passing table, since there the entry found is the one meant. -/
theorem lookupOpcodeSortsItsErrors : Obligations.LookupOpcodeSortsItsErrors := by
  intro rom m mode hb
  refine ⟨fun b => ⟨lookupOpcode_eq_ok, ?_⟩, lookupOpcode_eq_unsupported_iff, lookupOpcode_eq_unknownMnemonic_iff⟩
  rintro ⟨e, he, rfl, rfl, rfl⟩
  exact lookupOpcode_of_mem (build_eq_ok.mp hb).1 he

/-- Settles O11: the lookup answers an entry of the byte, in a passing table the only one, or finds none. -/
theorem lookupInstructionReadsTheEntry : Obligations.LookupInstructionReadsTheEntry := by
  intro rom b hb
  refine ⟨fun m mode => ⟨fun h => ?_, ?_⟩, ?_⟩
  · rcases lookupInstruction_cases rom b with ⟨-, hl⟩ | ⟨e, he, ho, hl⟩ <;> cases hl.symm.trans h
    exact ⟨e, he, rfl, rfl, ho⟩
  · rintro ⟨e, he, rfl, rfl, rfl⟩
    exact lookupInstruction_of_mem (build_eq_ok.mp hb).1 he
  · simp only [lookupInstruction_eq_illegalOpcode_iff, not_exists, not_and, ne_eq]

end Machine
end Sys2Proof
end

section
/-! SUPPORT. No request faults or answers construction's error, and construction faults with nothing else (R84, R230,
R234). -/

namespace Sys2Proof.Machine

theorem report_error_ne {rom : List Entry} {x y : Byte} {zp : Byte → Byte} {m : Mnemonic} {mode : Mode} {ops : Bytes}
    {e : BlockError} (h : report rom x y zp m mode ops = .error e) (d : Entry) : e ≠ .duplicateTableEntry d := by
  unfold report at h
  split at h
  · next he =>
    cases h
    exact encode_error_ne he d
  · split at h
    · next he =>
      cases h
      exact decode_error_ne he d
    · cases h

/-! ### Answers -/

theorem serve_response_ne {m : Mnemonic} {mode : Mode} {ops : Bytes} {s t : State} (h : serve m mode ops s = .next t)
    (d : Entry) : t.response ≠ some (.error (.duplicateTableEntry d)) := by
  rcases serve_cases m mode ops s with ⟨e, -, hr⟩ | ⟨e, -, hrep, hr⟩ | ⟨r, -, -, hr⟩ <;> cases hr.symm.trans h
  · simpa [State.answer] using report_error_ne hrep d
  · simp [State.answer]

theorem servePort_response_ne {q : Request} {s t : State} (h : servePort q s = .next t) (d : Entry) :
    t.response ≠ some (.error (.duplicateTableEntry d)) := by
  rcases servePort_cases q s with ⟨e, -, hr⟩ | ⟨e, -, -, hr⟩ | ⟨a, -, ha, hr⟩ <;> cases hr.symm.trans h
  intro hd
  obtain rfl : a = .error (.duplicateTableEntry d) := Option.some.inj hd
  exact answerPort_agrees ha d rfl

theorem step_response_ne {s t : State} (h : step s = .next t) (d : Entry) :
    t.response ≠ some (.error (.duplicateTableEntry d)) := by
  rcases step_cases s with ⟨q, rest, -, hr⟩ | ⟨-, e, -, hr⟩ | ⟨-, e, he, hr⟩ | ⟨-, i, -, hr⟩ <;> rw [hr] at h
  · exact servePort_response_ne h d
  · cases h
  · cases h
    simpa [State.answer] using decode_error_ne he d
  · exact serve_response_ne h d

/-! ### Faults -/

theorem serve_ne_fault (m : Mnemonic) (mode : Mode) (ops : Bytes) (s : State) (f : Fault) :
    serve m mode ops s ≠ .fault f := by
  rcases serve_cases m mode ops s with ⟨e, -, hr⟩ | ⟨e, -, -, hr⟩ | ⟨r, -, -, hr⟩ <;> simp [hr]

theorem servePort_ne_fault (q : Request) (s : State) (f : Fault) : servePort q s ≠ .fault f := by
  rcases servePort_cases q s with ⟨e, -, hr⟩ | ⟨e, -, -, hr⟩ | ⟨a, -, -, hr⟩ <;> simp [hr]

theorem exec_ne_fault (i : Instr) (s : State) (f : Fault) : exec i s ≠ .fault f := by
  rw [exec_eq_serve]
  exact serve_ne_fault i.mnemonic i.mode i.operands s f

theorem step_ne_fault (s : State) (f : Fault) : step s ≠ .fault f := by
  rcases step_cases s with ⟨q, rest, -, hr⟩ | ⟨-, e, -, hr⟩ | ⟨-, e, -, hr⟩ | ⟨-, d, -, hr⟩ <;> rw [hr]
  · exact servePort_ne_fault q s.popRequest f
  · simp
  · simp
  · exact serve_ne_fault d.mnemonic d.mode d.operands s f

/-- The offender that construction reports stands in the list (R84). -/
theorem mem_of_firstDuplicate {L : List Entry} {e : Entry} (h : firstDuplicate [] [] L = some e) : e ∈ L := by
  obtain ⟨before, after, rfl, -, -⟩ := firstDuplicate_eq_some h
  simp

/-- An entry given twice is a duplicate of itself (R84). -/
theorem construct_twice (ext : Bool) (e : Entry) : construct ext [e, e] = .fault (.duplicateTableEntry e) :=
  construct_eq_fault (firstDuplicate_append (L := [e]) (M := []) rfl (.inl (List.mem_singleton.mpr rfl)))

/-- Settles O35: requests end in an answer that no unit makes construction's error, or in a refusal; construction reports
an entry of its list, and any entry given twice. -/
theorem noRequestRaisesDuplicateTableEntry : Obligations.NoRequestRaisesDuplicateTableEntry := by
  refine ⟨fun s t e h => step_response_ne h e,
    fun s f => ⟨step_ne_fault s f, fun i => exec_ne_fault i s f, fun q => servePort_ne_fault q s f⟩,
    fun ext L f h => ?_, fun e => ⟨false, [e, e], construct_twice false e⟩⟩
  obtain ⟨e⟩ := f
  exact ⟨e, mem_of_firstDuplicate (construct_eq_fault_iff.mp h), rfl⟩

/-- Settles O8: the opcode map passes the check, so construction raises nothing and the verdict is the reset state's. -/
theorem opcodeMapConstructs : Obligations.OpcodeMapConstructs := by
  refine ⟨fun ext => construct_eq_next opcodeTable_passes, ?_⟩
  rw [powerOn, verdictOf_eq_passed.mpr opcodeTable_passes]
  rfl

end Sys2Proof.Machine
end

section
/-! SUPPORT. The opcode map against the rules of the mnemonics (R66, R160 to R215), and the worked examples (R88, R105). -/

namespace Sys2Proof.Machine

/-- R66: the rows of a mnemonic in the opcode map are the rows of its own rule, in another order. -/
theorem opcodeTable_rows_perm : ∀ m ∈ Mnemonic.all,
    ((opcodeTable.filter (fun e => e.mnemonic == m)).map (fun e => (e.mode, e.opcode))).Perm (ruleRows m) := by
  decide +kernel

theorem mem_ruleRows_iff {m : Mnemonic} {mode : Mode} {b : Byte} :
    (mode, b) ∈ ruleRows m ↔ ⟨m, mode, b⟩ ∈ opcodeTable := by
  rw [← (opcodeTable_rows_perm m m.mem_all).mem_iff]
  constructor
  · intro h
    obtain ⟨⟨m', mode', b'⟩, he, hrow⟩ := List.mem_map.mp h
    obtain ⟨hmem, hm⟩ := List.mem_filter.mp he
    cases hrow
    cases eq_of_beq hm
    exact hmem
  · exact fun h => List.mem_map.mpr ⟨_, List.mem_filter.mpr ⟨h, beq_self_eq_true m⟩, rfl⟩

/-- The byte that a mnemonic's rule gives a mode is an entry's of the block. -/
theorem mem_romFor_of_ruleOpcode {ext : Bool} {m : Mnemonic} {mode : Mode} {b : Byte}
    (h : ruleOpcode ext m mode = some b) : ⟨m, mode, b⟩ ∈ romFor ext := by
  unfold ruleOpcode at h
  split at h
  · next hx =>
    obtain ⟨l₁, l₂, hl, -⟩ := List.lookup_eq_some_iff.mp h
    exact mem_tableFor.mpr ⟨mem_ruleRows_iff.mp (by simp [hl]), by simpa using hx⟩
  · cases h

/-- An entry's mode is one that the mnemonic's rule lists and the block has. -/
theorem ruleOpcode_isSome_of_mem {ext : Bool} {e : Entry} (he : e ∈ romFor ext) :
    (ruleOpcode ext e.mnemonic e.mode).isSome = true := by
  obtain ⟨hmem, hx⟩ := mem_tableFor.mp he
  rw [Option.isSome_iff_ne_none, ruleOpcode, if_pos (by simpa using hx)]
  intro hn
  simpa using List.lookup_eq_none_iff.mp hn (e.mode, e.opcode) (mem_ruleRows_iff.mpr hmem)

/-- R80: a name is defined in the block exactly when its rule lists some mode that the block has. -/
theorem ruleOpcode_any_isSome_iff {ext : Bool} {m : Mnemonic} :
    Mode.all.any (fun k => (ruleOpcode ext m k).isSome) = true ↔ ∃ e ∈ romFor ext, e.mnemonic.name = m.name := by
  rw [List.any_eq_true]
  constructor
  · rintro ⟨mode, -, hb⟩
    obtain ⟨b, hb⟩ := Option.isSome_iff_exists.mp hb
    exact ⟨⟨m, mode, b⟩, mem_romFor_of_ruleOpcode hb, rfl⟩
  · rintro ⟨e, he, hm⟩
    obtain rfl := Mnemonic.name_injective hm
    exact ⟨e.mode, e.mode.mem_all, ruleOpcode_isSome_of_mem he⟩

/-- Settles O5: the rules list the entries of the block, and the lookup answers by the entries. -/
theorem opcodeMapIsTheMnemonicRules : Obligations.OpcodeMapIsTheMnemonicRules := by
  intro ext m mode
  cases hr : ruleOpcode ext m mode with
  | some b => exact lookupOpcode_of_mem (romFor_passes ext) (mem_romFor_of_ruleOpcode hr)
  | none =>
    have hno : ¬ ∃ e ∈ romFor ext, e.mnemonic.name = m.name ∧ e.mode = mode := by
      rintro ⟨e, he, hm, rfl⟩
      obtain rfl := Mnemonic.name_injective hm
      simpa [hr] using ruleOpcode_isSome_of_mem he
    simp only [ruleOpcode_any_isSome_iff]
    split
    · next hd => exact lookupOpcode_eq_unsupported_iff.mpr ⟨hd, hno⟩
    · next hd => exact lookupOpcode_eq_unknownMnemonic_iff.mpr hd

/-- The bytes of an entry's name and mode, in a table that passes: its opcode and the operand bytes given (R100). -/
theorem encode_of_mem {rom : List Entry} (hp : Passes rom) {e : Entry} (he : e ∈ rom) {ops : Bytes}
    (hl : ops.length = e.mode.operandSize) : encode rom e.mnemonic.name e.mode ops = .ok (e.opcode :: ops) := by
  simp [encode, lookupOpcode_of_mem hp he, hl]

/-- Settles O15: ADC's rule lists no Implied mode, 0xFF is an illegal byte of R68, and the two ASL rows are entries with
either value of EXT_MODES. -/
theorem workedTableExamples : Obligations.WorkedTableExamples := by
  intro ext
  have hmem (e : Entry) (he : e ∈ opcodeTable ∧ e.mode.isExt = false) : e ∈ romFor ext :=
    mem_tableFor.mpr ⟨he.1, .inr he.2⟩
  refine ⟨?_, ?_, ?_, ?_⟩
  · have hrule := opcodeMapIsTheMnemonicRules ext .adc .implied
    cases ext <;> exact hrule
  · exact lookupInstruction_eq_illegalOpcode_iff.mpr fun e he =>
      (mem_illegalBytes_iff 0xFF).mp (by decide) e (mem_tableFor.mp he).1
  · exact encode_of_mem (romFor_passes ext) (hmem ⟨.asl, .accumulator, 0x0A⟩ (by decide)) rfl
  · exact encode_of_mem (romFor_passes ext) (hmem ⟨.asl, .zeroPage, 0x06⟩ (by decide)) rfl

end Sys2Proof.Machine
end

section
/-! SUPPORT. The Encoder's answers, and the round trip of an entry's name, mode and operand bytes (R100 to R104). -/

namespace Sys2Proof.Machine

/-- Settles O16: the three answers of `encode` are told apart by the lookup and then by the operand count. -/
theorem encodeChecksLookupThenSize : Obligations.EncodeChecksLookupThenSize := by
  intro rom m mode ops
  rcases encode_cases rom m mode ops with ⟨e, hl, hr⟩ | ⟨op, hl, hs, hr⟩ | ⟨op, hl, hs, hr⟩
  · simp [hl, hr]
  · simp [hl, hr, hs, eq_comm]
  · simp [hl, hr, hs, eq_comm]

/-- Settles O2: an entry's name and mode are encoded as its opcode and the operand bytes, which the Decoder finds again. -/
theorem encodeThenDecodeRoundTrips : Obligations.EncodeThenDecodeRoundTrips := by
  refine ⟨fun ext => build_eq_ok.mpr ⟨romFor_passes ext, rfl⟩, fun rom e ops hb he hl => ?_⟩
  have hp : Passes rom := (build_eq_ok.mp hb).1
  exact ⟨e.opcode :: ops, encode_of_mem hp he hl, decode_entry_bytes hp he hl⟩

end Sys2Proof.Machine
end

section
/-! SUPPORT. The formulas of the Resolver as numbers: the address each answers, and when it leaves its base's page
(R44, R121 to R129). -/

namespace Sys2Proof.Machine

theorem setWidth_byte_toNat (b : Byte) : (b.setWidth 16 : Word).toNat = b.toNat :=
  BitVec.toNat_setWidth_of_le (by decide)

theorem eq_loByte_iff {b : Byte} {v : Word} : b = loByte v ↔ b.toNat = v.toNat % 256 := by
  rw [← BitVec.toNat_inj, loByte_toNat]

theorem eaZeroPage_toNat (operand : Word) : (eaZeroPage operand).ea.toNat = operand.toNat % 256 := by
  rw [eaZeroPage, setWidth_byte_toNat, loByte_toNat]

theorem eaZeroPageIndexed_toNat (operand : Word) (index : Byte) :
    (eaZeroPageIndexed operand index).ea.toNat = (operand.toNat % 256 + index.toNat) % 256 := by
  rw [eaZeroPageIndexed, setWidth_byte_toNat, BitVec.toNat_add, loByte_toNat]

theorem eaIndexed_toNat (base : Word) (index : Byte) :
    (eaIndexed base index).ea.toNat = (base.toNat + index.toNat) % 65536 := by
  rw [eaIndexed, BitVec.toNat_add, setWidth_byte_toNat]

/-- R121: a page is the quotient of an address by 256. -/
theorem pageCrossed_iff_toNat_div_ne (base ea : Word) :
    pageCrossed base ea = true ↔ base.toNat / 256 ≠ ea.toNat / 256 := by
  rw [pageCrossed, bne_iff_ne, ne_eq, ← BitVec.toNat_inj, hiByte_toNat, hiByte_toNat]

theorem eaIndexed_pageCrossed_iff (base : Word) (index : Byte) :
    (eaIndexed base index).pageCrossed = true ↔ base.toNat / 256 ≠ (eaIndexed base index).ea.toNat / 256 :=
  pageCrossed_iff_toNat_div_ne base (eaIndexed base index).ea

/-- An index below 256 leaves the base's page exactly when the low byte of the base carries (R132). At the top page
the sum wraps to page 0, which is another page too. -/
theorem eaIndexed_pageCrossed_iff_carry (base : Word) (index : Byte) :
    (eaIndexed base index).pageCrossed = true ↔ 256 ≤ base.toNat % 256 + index.toNat := by
  have hbase := base.isLt
  have hindex := index.isLt
  rw [eaIndexed_pageCrossed_iff, eaIndexed_toNat]
  omega

/-- R44, R47: the high byte of a pointer is read at the next zero-page address, modulo 256. -/
theorem pointerWord_eq_wordOf (zp : Byte → Byte) (p : Byte) :
    pointerWord zp p = wordOf (zp p) (zp (BitVec.ofNat 8 ((p.toNat + 1) % 256))) := by
  have hnext : p + 1 = BitVec.ofNat 8 ((p.toNat + 1) % 256) := by
    apply BitVec.eq_of_toNat_eq
    simp [BitVec.toNat_add]
  rw [pointerWord, hnext]

theorem pointerWord_toNat (zp : Byte → Byte) (p : Byte) :
    (pointerWord zp p).toNat = (zp p).toNat + 256 * (zp (BitVec.ofNat 8 ((p.toNat + 1) % 256))).toNat := by
  rw [pointerWord_eq_wordOf, wordOf_toNat, Nat.mul_comm, Nat.add_comm]

theorem pointerWord_toNat_div (zp : Byte → Byte) (p : Byte) :
    (pointerWord zp p).toNat / 256 = (zp (BitVec.ofNat 8 ((p.toNat + 1) % 256))).toNat := by
  rw [← hiByte_toNat, pointerWord_eq_wordOf, hiByte_wordOf]

/-- Settles O19: the three formulas zero-extend a byte, which is the sum modulo 256. -/
theorem zeroPageModesStayInZeroPage : Obligations.ZeroPageModesStayInZeroPage := fun operand x y _ =>
  ⟨⟨_, rfl, eaZeroPage_toNat operand, rfl⟩, ⟨_, rfl, eaZeroPageIndexed_toNat operand x, rfl⟩,
    ⟨_, rfl, eaZeroPageIndexed_toNat operand y, rfl⟩⟩

/-- Settles O20: Absolute answers the operand, and the other two are `eaIndexed` of it. -/
theorem absoluteModesAddWithCarry : Obligations.AbsoluteModesAddWithCarry := fun operand x y _ =>
  ⟨⟨_, rfl, rfl, rfl⟩, ⟨_, rfl, eaIndexed_toNat operand x, eaIndexed_pageCrossed_iff operand x⟩,
    ⟨_, rfl, eaIndexed_toNat operand y, eaIndexed_pageCrossed_iff operand y⟩⟩

/-- Settles O21: the premise on `p` names the byte at which each formula reads its pointer. -/
theorem indirectModesReadTheirPointer : Obligations.IndirectModesReadTheirPointer := by
  refine fun operand x y p zp => ⟨fun hp => ?_, fun hp => ?_⟩
  · have hbase : p = loByte operand + x := by
      apply BitVec.eq_of_toNat_eq
      rw [hp, BitVec.toNat_add, loByte_toNat, Nat.mod_add_mod]
    refine ⟨_, rfl, ?_, rfl⟩
    rw [eaIndirectX, ← hbase, pointerWord_toNat]
  · obtain rfl := eq_loByte_iff.mpr hp
    refine ⟨_, rfl, ?_, ?_⟩
    · rw [eaIndirectY, eaIndexed_toNat, pointerWord_toNat]
    · rw [eaIndirectY, eaIndexed_pageCrossed_iff, pointerWord_toNat_div]

/-- Settles O24: the indexed 16-bit modes answer `eaIndexed` of their base, every other mode the flag false. -/
theorem pageCrossIsAnIndexCarry : Obligations.PageCrossIsAnIndexCarry := by
  intro mode operand x y zp a h
  cases mode with
  | accumulator | implied | immediate | relative | indirect => cases h
  | zeroPage | zeroPageX | zeroPageY | absolute | indirectX =>
    cases h
    simp [eaZeroPage, eaZeroPageIndexed, eaAbsolute, eaIndirectX]
  | absoluteX =>
    cases h
    simpa using eaIndexed_pageCrossed_iff_carry operand x
  | absoluteY =>
    cases h
    simpa using eaIndexed_pageCrossed_iff_carry operand y
  | indirectY =>
    cases h
    have hlow : (pointerWord zp (loByte operand)).toNat % 256 = (zp (loByte operand)).toNat := by
      rw [← loByte_toNat, pointerWord, loByte_wordOf]
    simpa [hlow, eaIndirectY] using eaIndexed_pageCrossed_iff_carry (pointerWord zp (loByte operand)) y

end Sys2Proof.Machine
end

section
/-! SUPPORT. The Resolver built from the adder and the incrementer answers what the formulas answer (R132). -/

namespace Sys2Proof.Machine

/-- R132: with its carry discarded the adder is addition modulo 256. -/
theorem adderZeroPage_eq_add (base index : Byte) : adderZeroPage base index = base + index := by
  apply BitVec.eq_of_toNat_eq
  rw [adderZeroPage, (adder8_toNat base index).1, BitVec.toNat_add]

/-- R132: the adder's carry out of the low byte is the page cross. -/
theorem adder8_carry_eq_pageCrossed (base : Word) (i : Byte) :
    (adder8 (loByte base) i).1 = pageCrossed base (base + i.setWidth 16) := by
  rw [Bool.eq_iff_iff, (adder8_toNat _ i).2, loByte_toNat]
  exact (eaIndexed_pageCrossed_iff_carry base i).symm

theorem adder8_low_eq_loByte (base : Word) (i : Byte) :
    (adder8 (loByte base) i).2 = loByte (base + i.setWidth 16) := by
  rw [eq_loByte_iff, (adder8_toNat _ i).1, loByte_toNat, BitVec.toNat_add, setWidth_byte_toNat]
  omega

/-- R132: the high byte of an indexed address is the base's, incremented by the carry. -/
theorem hiByte_add_index (base : Word) (i : Byte) :
    hiByte base + (BitVec.ofBool (adder8 (loByte base) i).1).setWidth 8 = hiByte (base + i.setWidth 16) := by
  have hbase := base.isLt
  have hindex := i.isLt
  have hcarry := (adder8_toNat (loByte base) i).2
  rw [loByte_toNat] at hcarry
  apply BitVec.eq_of_toNat_eq
  rw [BitVec.toNat_add, hiByte_toNat, hiByte_toNat, BitVec.toNat_add, setWidth_byte_toNat]
  cases hc : (adder8 (loByte base) i).1 with
  | false =>
    have hsum : base.toNat % 256 + i.toNat < 256 := by simpa [hc] using hcarry
    rw [show ((BitVec.ofBool false).setWidth 8).toNat = 0 from rfl]
    omega
  | true =>
    have hsum : 256 ≤ base.toNat % 256 + i.toNat := hcarry.mp hc
    rw [show ((BitVec.ofBool true).setWidth 8).toNat = 1 from rfl]
    omega

theorem adderIndexed_eq_eaIndexed (base : Word) (i : Byte) : adderIndexed base i = eaIndexed base i := by
  rw [adderIndexed, hiByte_add_index, adder8_low_eq_loByte, wordOf_loByte_hiByte, adder8_carry_eq_pageCrossed,
    eaIndexed]

/-- R51: a byte with a zero high byte is its zero extension. -/
theorem wordOf_zero_eq_setWidth (b : Byte) : wordOf b 0 = b.setWidth 16 := by
  apply BitVec.eq_of_toNat_eq
  rw [wordOf_toNat, setWidth_byte_toNat]
  simp

/-- The two Resolvers agree, mode by mode. -/
theorem resolveByAdder_eq_resolveAddress (mode : Mode) (operand : Word) (x y : Byte) (zp : Byte → Byte) :
    resolveByAdder mode operand x y zp = resolveAddress mode operand x y zp := by
  cases mode with
  | accumulator | implied | immediate | absolute | relative | indirect => rfl
  | zeroPage => simp only [resolveByAdder, resolveAddress, eaZeroPage, wordOf_zero_eq_setWidth]
  | zeroPageX | zeroPageY =>
    simp only [resolveByAdder, resolveAddress, eaZeroPageIndexed, adderZeroPage_eq_add, wordOf_zero_eq_setWidth]
  | absoluteX | absoluteY => simp only [resolveByAdder, resolveAddress, adderIndexed_eq_eaIndexed]
  | indirectX => simp only [resolveByAdder, resolveAddress, eaIndirectX, pointerWord, adderZeroPage_eq_add]
  | indirectY =>
    simp only [resolveByAdder, resolveAddress, eaIndirectY, pointerWord, adderZeroPage_eq_add,
      adderIndexed_eq_eaIndexed]

/-- Settles O23: the incrementer supplies the high byte that the addition modulo 65536 has, and the carry is the flag. -/
theorem adderIsTheResolver : Obligations.AdderIsTheResolver :=
  ⟨resolveByAdder_eq_resolveAddress, fun base i => ⟨adder8_carry_eq_pageCrossed base i, adder8_low_eq_loByte base i⟩⟩

end Sys2Proof.Machine
end

section
/-! SUPPORT. Which inputs a mode's formula looks at, which modes have no formula, and the worked examples (R120, R130,
R131, R135). -/

namespace Sys2Proof

/-- The modes without an effective address (R130, R131). -/
theorem Mode.isMemory_eq_false_iff (mode : Mode) : mode.isMemory = false ↔
    mode = .accumulator ∨ mode = .implied ∨ mode = .immediate ∨ mode = .relative ∨ mode = .indirect := by
  cases mode <;> simp [Mode.isMemory]

namespace Machine

/-- Settles O22: the Resolver raises its one error exactly where the mode is no memory mode. -/
theorem otherModesHaveNoAddress : Obligations.OtherModesHaveNoAddress := by
  intro mode operand x y zp
  simp only [← Mode.isMemory_eq_false_iff]
  rcases resolveAddress_cases mode operand x y zp with ⟨hm, herror⟩ | ⟨hm, haddress⟩
  · rwa [if_pos hm]
  · rwa [if_neg (by simp [hm])]

/-- R48, R49: only the two indirect modes read zero page. -/
theorem zpReads_eq_nil {mode : Mode} (hx : mode ≠ .indirectX) (hy : mode ≠ .indirectY) (operand : Word) (x : Byte) :
    zpReads mode operand x = [] := by
  simpa [hx, hy] using resolverDependsOnItsReadsOnly.2 mode operand x

theorem resolveAddress_congr_y {mode : Mode} (hz : mode ≠ .zeroPageY) (ha : mode ≠ .absoluteY)
    (hi : mode ≠ .indirectY) (operand : Word) (x y y' : Byte) (zp : Byte → Byte) :
    resolveAddress mode operand x y zp = resolveAddress mode operand x y' zp := by
  cases mode with
  | zeroPageY | absoluteY | indirectY => contradiction
  | accumulator | implied | immediate | zeroPage | zeroPageX | absolute | absoluteX | indirectX | relative
  | indirect => rfl

theorem resolveAddress_congr_x {mode : Mode} (hz : mode ≠ .zeroPageX) (ha : mode ≠ .absoluteX)
    (hi : mode ≠ .indirectX) (operand : Word) (x x' y : Byte) (zp : Byte → Byte) :
    resolveAddress mode operand x y zp = resolveAddress mode operand x' y zp := by
  cases mode with
  | zeroPageX | absoluteX | indirectX => contradiction
  | accumulator | implied | immediate | zeroPage | zeroPageY | absolute | absoluteY | indirectY | relative
  | indirect => rfl

/-- D6: a mode with one operand byte looks at the low byte of the operand input only. -/
theorem resolveAddress_congr_loByte {mode : Mode} (hs : mode.operandSize = 1) {operand operand' : Word}
    (hlow : loByte operand = loByte operand') (x y : Byte) (zp : Byte → Byte) :
    resolveAddress mode operand x y zp = resolveAddress mode operand' x y zp := by
  cases mode with
  | accumulator | implied | absolute | absoluteX | absoluteY | indirect => simp [Mode.operandSize] at hs
  | immediate | relative => rfl
  | zeroPage => simp only [resolveAddress, eaZeroPage, hlow]
  | zeroPageX | zeroPageY => simp only [resolveAddress, eaZeroPageIndexed, hlow]
  | indirectX => simp only [resolveAddress, eaIndirectX, hlow]
  | indirectY => simp only [resolveAddress, eaIndirectY, hlow]

/-- Settles O26: input by input; memory is what the Resolver's reads see of it, and these modes read nothing. -/
theorem unnamedInputsAreIgnored : Obligations.UnnamedInputsAreIgnored := by
  intro mode operand operand' x x' y y' zp zp'
  refine ⟨fun hz ha hi => resolveAddress_congr_y hz ha hi operand x y y' zp,
    fun hz ha hi => resolveAddress_congr_x hz ha hi operand x x' y zp,
    fun hx hy => resolveAddress_congr (by simp [zpReads_eq_nil hx hy]) y, fun hs hmod => ?_⟩
  have hlow : loByte operand = loByte operand' := eq_loByte_iff.mpr ((loByte_toNat operand).trans hmod)
  exact resolveAddress_congr_loByte hs hlow x y zp

/-- Settles O27: the formulas at the examples' inputs; the third one's pointer is the word its two premises give. -/
theorem workedResolverExamples : Obligations.WorkedResolverExamples := by
  refine fun x y zp => ⟨rfl, rfl, fun hlow hhigh => ?_⟩
  have hpointer : pointerWord zp (loByte 0x0010) = 0x30FF := by
    rw [show loByte 0x0010 = 0x10 from rfl, pointerWord, hlow, show (0x10 : Byte) + 1 = 0x11 from rfl, hhigh]
    rfl
  rw [resolveAddress, eaIndirectY, hpointer]
  rfl

end Machine
end Sys2Proof
end

section
/-! SUPPORT. The Decoder at each cursor: past the end, and at a byte of the stream that names an entry; and that the bytes
before the cursor play no part (R150 to R154). -/

namespace Sys2Proof

/-- R150: past the end there is no opcode byte, so one byte is needed and none is there. -/
theorem decode_of_length_le {rom : List Entry} {bytes : Bytes} {cursor : Nat} (h : bytes.length ≤ cursor) :
    decode rom bytes cursor = .error (.truncatedInstruction 1 0) := by
  simp only [decode, List.drop_eq_nil_of_le h]

/-- The Decoder looks at the bytes from the cursor on, and at nothing else (R153, R154). -/
theorem decode_congr {rom : List Entry} {bytes bytes' : Bytes} {cursor cursor' : Nat}
    (h : bytes.drop cursor = bytes'.drop cursor') : decode rom bytes cursor = decode rom bytes' cursor' := by
  simp only [decode, h]

namespace Machine

/-- With a legal opcode byte at the cursor, the bytes after it are counted, and the first of them are the operand bytes
(R151, R152). -/
theorem decode_of_lookupInstruction_ok {rom : List Entry} {bytes : Bytes} {cursor : Nat} {b : Byte} {m : Mnemonic}
    {mode : Mode} (hb : bytes[cursor]? = some b) (hl : lookupInstruction rom b = .ok (m, mode)) :
    decode rom bytes cursor =
      if bytes.length - cursor - 1 < mode.operandSize then
        .error (.truncatedInstruction mode.operandSize (bytes.length - cursor - 1))
      else .ok ⟨m, mode, (bytes.drop (cursor + 1)).take mode.operandSize, 1 + mode.operandSize⟩ := by
  obtain ⟨hlt, rfl⟩ := List.getElem?_eq_some_iff.mp hb
  simp only [decode, List.drop_eq_getElem_cons hlt, hl, List.length_drop, Nat.sub_add_eq]

/-- Settles O17: the checks one by one, each with what the ones before it leave. -/
theorem decodeChecksCursorOpcodeThenLength : Obligations.DecodeChecksCursorOpcodeThenLength := by
  intro rom bytes cursor
  refine ⟨decode_of_length_le, fun b hb => ⟨fun e hl => decode_of_lookupInstruction_error hb hl, fun m mode hl => ?_⟩⟩
  rw [decode_of_lookupInstruction_ok hb hl]
  exact ⟨fun hshort => if_pos hshort, fun hlong => if_neg (Nat.not_lt.mpr hlong)⟩

/-- Settles O18: past the bytes put before it, the same bytes stand from the cursor on. -/
theorem decodeIsPositionIndependent : Obligations.DecodeIsPositionIndependent :=
  fun _ _ _ cursor => decode_congr (List.drop_length_add_append cursor)

end Machine
end Sys2Proof
end

section
/-! SUPPORT. Every form of every mnemonic is delivered: what `State.delivers` expects of an instruction is what the
shared meaning answers for the instruction's entry of the opcode map (44_instructions.md). The byte of that entry is read
from the rule of the mnemonic, which `encodeInstr` states (R160 to R215). -/

namespace Sys2Proof

/-- An instruction that is no extension form exists in a block with either value of EXT_MODES (R12, R69). -/
theorem Instr.wellFormed_of_extOnly_eq_false {i : Instr} (h : i.extOnly = false) (ext : Bool) :
    i.wellFormed ext = true := by
  simp [Instr.wellFormed, h]

namespace Machine

/-- An entry of a table that passes the check, with as many operand bytes as its mode has, is encoded (R100), decoded
again (R150), resolved (R120), and the cursor moved past it (R20). -/
theorem serve_of_mem {s : State} (hs : s.Serving) (hp : Passes s.rom) {e : Entry} (he : e ∈ s.rom) {ops : Bytes}
    (hl : ops.length = e.mode.operandSize) :
    serve e.mnemonic e.mode ops s = .next (s.delivers e.opcode e.mnemonic e.mode ops) := by
  have hreport : report s.rom s.x s.y s.zpRead e.mnemonic e.mode ops =
      .ok (describe (e.opcode :: ops) ⟨e.mnemonic, e.mode, ops, 1 + ops.length⟩ s.x s.y s.zpRead) := by
    simp only [report, encode_of_mem hp he hl, decode_entry_bytes hp he hl, hl]
  simp only [serve, hs, hreport]
  rfl

/-- A well-formed instruction is delivered with the opcode byte that its rule gives it, since that byte and its pair are
one entry of the opcode map. -/
theorem exec_eq_delivers {s : State} (hs : s.Standard) {i : Instr} (hw : i.wellFormed s.extModes = true) {b : Byte}
    (hb : encodeInstr i = b :: i.operands) : exec i s = .next (s.delivers b i.mnemonic i.mode i.operands) := by
  obtain ⟨e, he, hm, hmode, hbytes⟩ := exists_entry_of_wellFormed hw
  obtain rfl : b = e.opcode := (List.cons.inj (hb.symm.trans hbytes)).1
  have hl : i.operands.length = e.mode.operandSize := by rw [i.operands_length, hmode]
  rw [exec_eq_serve, hm, hmode]
  exact serve_of_mem hs.1 (hs.rom_eq ▸ romFor_passes s.extModes) (hs.rom_eq ▸ he) hl

/-- With either value of EXT_MODES, an instruction that is no extension form is delivered. -/
theorem exec_eq_delivers_of_extOnly_eq_false {s : State} (hs : s.Standard) {i : Instr} (hx : i.extOnly = false)
    {b : Byte} (hb : encodeInstr i = b :: i.operands) :
    exec i s = .next (s.delivers b i.mnemonic i.mode i.operands) :=
  exec_eq_delivers hs (Instr.wellFormed_of_extOnly_eq_false hx s.extModes) hb

/-- With EXT_MODES every instruction is delivered, the extension forms too. -/
theorem exec_eq_delivers_of_extModes {s : State} (hs : s.Standard) (hx : s.extModes = true) {i : Instr} {b : Byte}
    (hb : encodeInstr i = b :: i.operands) : exec i s = .next (s.delivers b i.mnemonic i.mode i.operands) :=
  exec_eq_delivers hs (by rw [hx]; rfl) hb

/-- Settles O42: no form of ADC or SBC is an extension form, and the opcode bytes are those of R160 and R203. -/
theorem arithmeticInstructionsAreDelivered : Obligations.ArithmeticInstructionsAreDelivered := by
  intro s n lo hi hs
  and_intros <;> exact exec_eq_delivers_of_extOnly_eq_false hs rfl rfl

/-- Settles O43: the four mnemonics have no extension form, and the opcode bytes are those of R161, R166, R183 and
R194. -/
theorem logicInstructionsAreDelivered : Obligations.LogicInstructionsAreDelivered := by
  intro s n lo hi hs
  and_intros <;> exact exec_eq_delivers_of_extOnly_eq_false hs rfl rfl

/-- Settles O44: the four mnemonics have no extension form, and the opcode bytes are those of R162, R192, R199 and
R200. The Accumulator forms have no operand byte, so one byte is consumed. -/
theorem shiftInstructionsAreDelivered : Obligations.ShiftInstructionsAreDelivered := by
  intro s n lo hi hs
  and_intros <;> exact exec_eq_delivers_of_extOnly_eq_false hs rfl rfl

/-- Settles O45: the three mnemonics have no extension form, and the opcode bytes are those of R177 to R179. -/
theorem comparisonsAreDelivered : Obligations.ComparisonsAreDelivered := by
  intro s n lo hi hs
  and_intros <;> exact exec_eq_delivers_of_extOnly_eq_false hs rfl rfl

/-- Settles O46: the six mnemonics have no extension form, and the opcode bytes are those of R180 to R182 and R184 to
R186. -/
theorem incrementsAndDecrementsAreDelivered : Obligations.IncrementsAndDecrementsAreDelivered := by
  intro s n lo hi hs
  and_intros <;> exact exec_eq_delivers_of_extOnly_eq_false hs rfl rfl

/-- Settles O47: the three mnemonics have no extension form, and the opcode bytes are those of R189 to R191. -/
theorem loadsAreDelivered : Obligations.LoadsAreDelivered := by
  intro s n lo hi hs
  and_intros <;> exact exec_eq_delivers_of_extOnly_eq_false hs rfl rfl

/-- Settles O48: the three mnemonics have no extension form, and the opcode bytes are those of R207 to R209. -/
theorem storesAreDelivered : Obligations.StoresAreDelivered := by
  intro s n lo hi hs
  and_intros <;> exact exec_eq_delivers_of_extOnly_eq_false hs rfl rfl

/-- Settles O49: Implied is no extension mode, and the opcode bytes are those of R210 to R215. -/
theorem transfersAreDelivered : Obligations.TransfersAreDelivered := by
  intro s hs
  and_intros <;> exact exec_eq_delivers_of_extOnly_eq_false hs rfl rfl

/-- Settles O50: Implied is no extension mode, and the opcode bytes are those of R195 to R198. -/
theorem stackInstructionsAreDelivered : Obligations.StackInstructionsAreDelivered := by
  intro s hs
  and_intros <;> exact exec_eq_delivers_of_extOnly_eq_false hs rfl rfl

/-- Settles O51: Implied is no extension mode, and the opcode bytes are those of R173 to R176 and R204 to R206. -/
theorem statusFlagInstructionsAreDelivered : Obligations.StatusFlagInstructionsAreDelivered := by
  intro s hs
  and_intros <;> exact exec_eq_delivers_of_extOnly_eq_false hs rfl rfl

/-- Settles O52: the branches exist with EXT_MODES, and their opcode bytes are those of R163 to R165, R167 to R169, R171
and R172. -/
theorem branchesAreDeliveredWithExtModes : Obligations.BranchesAreDeliveredWithExtModes := by
  intro s n hs hx
  and_intros <;> exact exec_eq_delivers_of_extModes hs hx rfl

/-- Settles O53: six forms exist with either value of EXT_MODES and JMP Indirect with it (R187); the opcode bytes are
those of R170, R187, R188, R193, R201 and R202. -/
theorem jumpsReturnsAndNopAreDelivered : Obligations.JumpsReturnsAndNopAreDelivered := by
  intro s lo hi hs
  have hind (hx : s.extModes = true) : exec (.jmpInd lo hi) s = .next (s.delivers 0x6C .jmp .indirect [lo, hi]) :=
    exec_eq_delivers_of_extModes hs hx rfl
  refine ⟨?_, ?_, ?_, ?_, ?_, ?_, hind⟩ <;> exact exec_eq_delivers_of_extOnly_eq_false hs rfl rfl

end Machine
end Sys2Proof
end

section
/-! SUPPORT. An error is a result and nothing else: what it leaves unchanged, that it repeats, and that a serving block
answers instead of stopping (R230, R231, R232, R248). -/

namespace Sys2Proof.Machine

/-- A walk step that answers an error does nothing else: the report of an instruction is no error (R231). -/
theorem eq_answersError_of_walk_step {s t : State} {e : BlockError} (hw : s.Walking) (h : step s = .next t)
    (he : t.response = some (.error e)) : t = s.answersError e := by
  rcases walk_step_cases hw with ⟨e', hr⟩ | ⟨r, -, -, hr⟩ <;> cases hr.symm.trans h
  · cases he
    rfl
  · cases he

/-- With no request pending there is none to take off: the answer is the only change. -/
theorem State.Walking.answersError_eq {s : State} (hw : s.Walking) (e : BlockError) :
    s.answersError e = { s with pending := s.pending.tail, response := some (.error e) } := by
  rw [State.answersError, State.answer, hw.2, List.tail_nil]

/-- Settles O30: a port's next state is an answer with the request taken off, and a walk step's error is an answer alone. -/
theorem errorAnswersChangeNothingElse : Obligations.ErrorAnswersChangeNothingElse := by
  intro s t e h he
  have walk (hw : s.Walking) : t = { s with pending := s.pending.tail, response := some (.error e) } :=
    (eq_answersError_of_walk_step hw h he).trans (hw.answersError_eq e)
  rcases step_cases s with ⟨q, rest, -, hr⟩ | ⟨-, e', -, hr⟩ | ⟨hw, -⟩ | ⟨hw, -⟩
  · obtain ⟨a, rfl⟩ := servePort_eq_next (hr.symm.trans h)
    cases he
    rfl
  · cases hr.symm.trans h
  · exact walk hw
  · exact walk hw

/-- Settles O38: an error of the walk leaves the cursor where it was, and a port's answer changes nothing a port reads. -/
theorem repeatedErrorsRepeat : Obligations.RepeatedErrorsRepeat := by
  refine ⟨fun s t e hw h he => ?_, fun s t q h => (servePort_after_servePort h q).trans h⟩
  obtain rfl := eq_answersError_of_walk_step hw h he
  exact step_answersError h

/-- A serving block answers whatever instruction it is given: by an error or by a report (R231). -/
theorem serve_runs {s : State} (hs : s.Serving) (m : Mnemonic) (mode : Mode) (ops : Bytes) :
    Runs (serve m mode ops s) := by
  rcases serve_cases m mode ops s with ⟨e, hf, -⟩ | ⟨e, -, -, hr⟩ | ⟨r, -, -, hr⟩
  · cases hs.symm.trans hf
  · exact ⟨_, hr⟩
  · exact ⟨_, hr⟩

/-- Settles O41: `exec` is `serve`, which answers in a serving block, and a walk step answers an error or a report. -/
theorem servingBlockAlwaysAnswersInstructions : Obligations.ServingBlockAlwaysAnswersInstructions := by
  refine fun s hs => ⟨fun i => ?_, fun hp => ?_⟩
  · rw [exec_eq_serve]
    exact serve_runs hs i.mnemonic i.mode i.operands
  · rcases walk_step_cases ⟨hs, hp⟩ with ⟨e, hr⟩ | ⟨r, -, -, hr⟩ <;> exact ⟨_, hr⟩

/-- Settles O60: a code is read off the error's constructor, whatever the error records. -/
theorem everyErrorHasItsCode : Obligations.EveryErrorHasItsCode :=
  fun _ _ _ _ _ _ => ⟨rfl, rfl, rfl, rfl, rfl, rfl, rfl⟩

end Sys2Proof.Machine
end
